-- ==== Sys2Proof/Word.lean ====
section
/-! DEFINITION. The word types of the RDPE: every value of the hardware is an unsigned bit field
(00_scope.md R7, R8, R9). -/

namespace Sys2Proof

/-- One byte of register data (R7, R39). -/
abbrev Byte := BitVec 8

/-- A 16-bit value: version word, working-time count, base code (R7). -/
abbrev Half := BitVec 16

/-- A 32-bit value: a command word, a response word, a rainfall or raw count (R7, R61). -/
abbrev Word := BitVec 32

end Sys2Proof
end

