-- ==== Sys2Proof/Config.lean ====
section
/-! DEFINITION. What is fixed for a run: the parameters of 00_scope.md R6, the device register map
of 20_memory.md R40, and the free values of the spec (values it leaves open, as constants without a
body). -/

namespace Sys2Proof

/-- The parameters of R6 that this hardware lets the integrator choose. They are fixed before reset
is released and no step writes them (R37, R145); `State` carries them in its field `cfg` so that a
statement about every state is a statement about every setting (log entry 3). -/
structure Config where
  /-- `T_SETTLE` in milliseconds (R6, R137). The untimed step reads it nowhere (R136). DESIGN CHOICE: it
  is a whole number of milliseconds; the spec gives its domain no resolution (log entry 25). -/
  tSettleMs : Nat
  /-- `READ_VERSION_AT_INIT`: INIT reads VERSION after a good identity (R6, R104). -/
  readVersionAtInit : Bool
  deriving DecidableEq, Repr

/-- The values this hardware takes by default: `T_SETTLE` = 100 ms, `READ_VERSION_AT_INIT` = 1 (R6,
R137). -/
def Config.standard : Config := { tSettleMs := 100, readVersionAtInit := true }

/-- `DEV_ADDR`, the device address the transport carries: OPEN in the spec (R6, R47), so a free
value. No rule reads it (log entry 4). PRESUMED: 7 bits wide (R6's own mark). -/
opaque Config.devAddr : BitVec 7

/-- The draw of the SELECT step (R111) where the schedule leaves it open: a free value, one for each
value of the counter `State.draws` (log entry 5). -/
opaque Config.freePick : Nat → Nat

/-- What the decoder drives on an output port for which the selected function's rule states no value
(R72, R73): a free value, for each port (0 to 8 in the order of `DecOut`), function and list of the
inputs the function reads, since the decoder is combinational (log entry 8). -/
opaque Config.freePort : Nat → Nat → List Nat → Nat

/-- `VENDOR_EXPECTED` (R6, R85). -/
def Config.vendorExpected : Half := 0x3343

/-- `PRODUCT_EXPECTED` (R6, R85), in its 20-bit container. -/
def Config.productExpected : BitVec 20 := 0x100C0

/-- `RAIN_SCALE`: divisor from a rainfall count to millimetres (R6). -/
def Config.rainScale : Nat := 10000

/-- `TIME_SCALE`: divisor from a working-time count to hours (R6). -/
def Config.timeScale : Nat := 60

/-- The nine named device registers (R40). -/
inductive Reg where
  | productId | vendorId | version | timeRainfall | cumulativeRainfall | rawData | systemTime
  | rainHourWindow | baseRainfall
  deriving DecidableEq, Repr

/-- How the RDPE reaches a register (R40, column "RDPE access"). -/
inductive Access where
  | read | write | never
  deriving DecidableEq, Repr

/-- The register's address (R40). -/
def Reg.addr : Reg → BitVec 8
  | .productId => 0x00
  | .vendorId => 0x02
  | .version => 0x0A
  | .timeRainfall => 0x0C
  | .cumulativeRainfall => 0x10
  | .rawData => 0x14
  | .systemTime => 0x18
  | .rainHourWindow => 0x26
  | .baseRainfall => 0x28

/-- The register's width in bytes (R40, R41; 90_conflicts.md C2, C3). -/
def Reg.width : Reg → Nat
  | .productId => 4
  | .vendorId => 2
  | .version => 2
  | .timeRainfall => 4
  | .cumulativeRainfall => 4
  | .rawData => 4
  | .systemTime => 2
  | .rainHourWindow => 1
  | .baseRainfall => 2

/-- The RDPE's access to the register (R40). VENDOR_ID is never accessed on its own (R43). -/
def Reg.access : Reg → Access
  | .vendorId => .never
  | .rainHourWindow => .write
  | .baseRainfall => .write
  | _ => .read

end Sys2Proof
end

