-- ==== Sys2Proof/Syntax.lean ====
section
/-! DEFINITION. The instructions of the opcode table and the four formats that carry them and their
effects (30_encoding.md R61): CMD words, DEC selections, RESP records, TX requests with their
answers; and the assembler's statements (R78). -/

namespace Sys2Proof

/-- One constructor per row of spec/opcode_table.json: the three host commands (R63) and the seven
decoder functions (R73), each with the operands its rule names. -/
inductive Instr where
  /-- INIT (R64, R102). -/
  | init
  /-- POLL (R65, R109): REQ_CUM, REQ_WIN, REQ_RAW, REQ_TIME, HOURS. -/
  | poll (cum win raw time : Bool) (hours : Byte)
  /-- SET_BASE (R66, R117): CODE. -/
  | setBase (code : Half)
  /-- DEC_IDENTITY (R84): IN_B[0..3]. -/
  | decIdentity (b0 b1 b2 b3 : Byte)
  /-- DEC_VERSION (R87): IN_B[0..1]. -/
  | decVersion (b0 b1 : Byte)
  /-- DEC_RAINFALL (R89): IN_B[0..3]. -/
  | decRainfall (b0 b1 b2 b3 : Byte)
  /-- DEC_RAWCOUNT (R90): IN_B[0..3]. -/
  | decRawcount (b0 b1 b2 b3 : Byte)
  /-- DEC_WORKTIME (R91): IN_B[0..1]. -/
  | decWorktime (b0 b1 : Byte)
  /-- ENC_BASE (R94): IN_CODE. -/
  | encBase (code : Half)
  /-- ENC_WINDOW (R96): IN_HOURS. -/
  | encWindow (hours : Byte)
  deriving DecidableEq, Repr

/-- The decoder's input ports (R72): FUNC, IN_B[0..3], IN_CODE, IN_HOURS. -/
structure DecIn where
  func : BitVec 3
  b0 : Byte
  b1 : Byte
  b2 : Byte
  b3 : Byte
  code : Half
  hours : Byte
  deriving DecidableEq, Repr

/-- What carries an instruction: a 32-bit word on the command channel (format CMD) or a selection on
the decoder's input ports (format DEC) (R61). Words travel as integers, so they have no byte order
(R57, R61). -/
inductive Encoded where
  | cmd (w : Word)
  | dec (p : DecIn)
  deriving DecidableEq, Repr

/-- Why no instruction is read, by name. -/
inductive DecodeError where
  /-- OP is 0x0 or 0x4 to 0xF (R63, R67). -/
  | reservedOp (op : BitVec 4)
  /-- a bit marked "reserved, must be 0" is 1 in a word whose OP is `op` (R64 to R67). -/
  | reservedBits (op : BitVec 4)
  /-- FUNC = 7 (R74). -/
  | reservedFunc
  deriving DecidableEq, Repr

/-- READ or WRITE (R75). -/
inductive XKind where
  | read | write
  deriving DecidableEq, Repr

/-- A transport request event (format TX, R75). -/
inductive TReq where
  | read (addr : BitVec 8) (width : Nat)
  | write (addr : BitVec 8) (bytes : List Byte)
  deriving DecidableEq, Repr

/-- The register XREQ (R24): kind, address and width of the outstanding request. -/
structure XReq where
  kind : XKind
  addr : BitVec 8
  width : Nat
  deriving DecidableEq, Repr

/-- What XREQ holds of a request (R24). -/
def TReq.toXReq : TReq → XReq
  | .read a n => { kind := .read, addr := a, width := n }
  | .write a bs => { kind := .write, addr := a, width := bs.length }

/-- The Transport's answer (R47): DATA with a list of bytes of any length, OK, or ERR. -/
inductive TRsp where
  | data (bytes : List Byte)
  | ok
  | err
  deriving DecidableEq, Repr

/-- The answer to a READ (R47, R122). -/
inductive ReadRsp where
  | data (bytes : List Byte)
  | err
  deriving DecidableEq, Repr

/-- The answer to a WRITE (R47, R122). -/
inductive WriteRsp where
  | ok
  | err
  deriving DecidableEq, Repr

/-- "a READ is answered only by DATA or ERR" (R122). -/
def TRsp.asRead : TRsp → Option ReadRsp
  | .data bs => some (.data bs)
  | .err => some .err
  | .ok => none

/-- "a WRITE only by OK or ERR" (R122). -/
def TRsp.asWrite : TRsp → Option WriteRsp
  | .ok => some .ok
  | .err => some .err
  | .data _ => none

/-- The answer as the trace shows it. -/
def ReadRsp.toTRsp : ReadRsp → TRsp
  | .data bs => .data bs
  | .err => .err

/-- The answer as the trace shows it. -/
def WriteRsp.toTRsp : WriteRsp → TRsp
  | .ok => .ok
  | .err => .err

/-- Whether the answer is one the request's kind admits (R47, R122). -/
def TRsp.fits (r : TRsp) (q : XReq) : Bool :=
  match q.kind with
  | .read => r.asRead.isSome
  | .write => r.asWrite.isSome

/-- The response record (format RESP, R68): five 32-bit words. -/
structure Resp where
  rw0 : Word
  rw1 : Word
  rw2 : Word
  rw3 : Word
  rw4 : Word
  deriving DecidableEq, Repr

/-- Five zero words (R26). -/
def Resp.zero : Resp := { rw0 := 0, rw1 := 0, rw2 := 0, rw3 := 0, rw4 := 0 }

/-- One item of a POLL statement of the assembler (R78). -/
inductive PollItem where
  | cum
  | win (hours : Nat)
  | raw
  | time
  deriving DecidableEq, Repr

/-- A statement of the assembler (R78): the three statements and the three pseudo-instructions. A
millimetre value is given as the 64 bits of its binary64 encoding (R95). -/
inductive Asm where
  | init
  | poll (items : List PollItem)
  | setBase (code : Nat)
  | pollAll (hours : Nat)
  | pollWin (hours : Nat)
  | setBaseMm (v : BitVec 64)
  deriving DecidableEq, Repr

end Sys2Proof
end

