-- ==== Sys2Proof/WellFormed.lean ====
section
/-! DEFINITION. Well-formedness. Every operand of `Instr` has the exact width of its field (R65, R66,
R72) and every value of the field is legal (HOURS 0 to 255: R65; CODE 0 to 0xFFFF: R117; HOURS is
ignored, not reserved, when REQ_WIN = 0: R65), so every instruction is well-formed. The checks stand
where the spec puts them: on the assembler's statements (R78). -/

namespace Sys2Proof

/-- Every term of `Instr` is well-formed: the operand types are the fields' own widths and no value
of a field is reserved (R65, R66, R72, R77). -/
def Instr.wf (_ : Instr) : Bool := true

/-- "H decimal 0 to 255 or hex" (R78). -/
def hoursFits (h : Nat) : Bool := decide (h ≤ 255)

/-- An item's operand fits its field (R78). -/
def PollItem.wf : PollItem → Bool
  | .win h => hoursFits h
  | _ => true

/-- How many of the items request cumulative rainfall, windowed rainfall, the raw count, the working
time. -/
def PollItem.counts (items : List PollItem) : Nat × Nat × Nat × Nat :=
  (items.countP (fun i => match i with | .cum => true | _ => false),
   items.countP (fun i => match i with | .win _ => true | _ => false),
   items.countP (fun i => match i with | .raw => true | _ => false),
   items.countP (fun i => match i with | .time => true | _ => false))

/-- "each at most once, in any order" (R78). -/
def PollItem.atMostOnce (items : List PollItem) : Bool :=
  let (c, w, r, t) := PollItem.counts items
  decide (c ≤ 1) && decide (w ≤ 1) && decide (r ≤ 1) && decide (t ≤ 1)

/-- The checks the assembler's syntax puts on a statement (R78). The refusal of `SETBASE.MM v` for a
value that has no code is the assembler's own (R95) and stands with `assemble`. -/
def Asm.wf : Asm → Bool
  | .init => true
  | .poll items => items.all PollItem.wf && PollItem.atMostOnce items
  | .setBase c => decide (c ≤ 0xFFFF)
  | .pollAll h => hoursFits h
  | .pollWin h => hoursFits h
  | .setBaseMm _ => true

end Sys2Proof
end

