-- ==== Sys2Proof/Decode.lean ====
section
/-! DEFINITION. The command decoder and the decoder-select decoder, total on every word and every
selection, and the encoder (30_encoding.md R62 to R67, R72 to R74, R77, R79). -/

namespace Sys2Proof

/-- OP, bits [3:0] of every command word (R62). -/
def opField (w : Word) : BitVec 4 := w.extractLsb' 0 4

/-- The class of a 32-bit command word (R79): INIT, POLL, SET_BASE or reserved, the latter by name
(R67). Operands are assembled as R77 says. -/
def decodeCmd (w : Word) : Except DecodeError Instr :=
  if opField w = 1 then
    if w.extractLsb' 4 28 = 0 then .ok .init else .error (.reservedBits 1)
  else if opField w = 2 then
    if w.extractLsb' 16 16 = 0 then
      .ok (.poll (w.getLsbD 4) (w.getLsbD 5) (w.getLsbD 6) (w.getLsbD 7) (w.extractLsb' 8 8))
    else .error (.reservedBits 2)
  else if opField w = 3 then
    if w.extractLsb' 4 12 = 0 then .ok (.setBase (w.extractLsb' 16 16))
    else .error (.reservedBits 3)
  else .error (.reservedOp (opField w))

/-- The decoder function FUNC selects, with the inputs its rule names (R72, R73); FUNC = 7 is
reserved (R74). -/
def decodeDec (p : DecIn) : Except DecodeError Instr :=
  if p.func = 0 then .ok (.decIdentity p.b0 p.b1 p.b2 p.b3)
  else if p.func = 1 then .ok (.decVersion p.b0 p.b1)
  else if p.func = 2 then .ok (.decRainfall p.b0 p.b1 p.b2 p.b3)
  else if p.func = 3 then .ok (.decRawcount p.b0 p.b1 p.b2 p.b3)
  else if p.func = 4 then .ok (.decWorktime p.b0 p.b1)
  else if p.func = 5 then .ok (.encBase p.code)
  else if p.func = 6 then .ok (.encWindow p.hours)
  else .error .reservedFunc

/-- The decoder of both instruction formats (R61). -/
def decode : Encoded → Except DecodeError Instr
  | .cmd w => decodeCmd w
  | .dec p => decodeDec p

/-- One request bit at its place in the POLL word (R65). -/
def flagAt (b : Bool) (pos : Nat) : Word := (BitVec.ofBool b).setWidth 32 <<< pos

/-- INIT word (R64). -/
def initWord : Word := 0x00000001

/-- POLL word (R65, R78): `0x2 | REQ_CUM<<4 | REQ_WIN<<5 | REQ_RAW<<6 | REQ_TIME<<7 | H<<8`. -/
def pollWord (cum win raw time : Bool) (hours : Byte) : Word :=
  0x2#32 ||| flagAt cum 4 ||| flagAt win 5 ||| flagAt raw 6 ||| flagAt time 7
    ||| hours.setWidth 32 <<< 8

/-- SET_BASE word (R66, R78): `0x3 | c<<16`. -/
def setBaseWord (code : Half) : Word := 0x3#32 ||| code.setWidth 32 <<< 16

/-- A selection of `func` with every input port at 0; the encoder sets the ports the function
reads, the others are don't-care (R72). -/
def selectFunc (func : BitVec 3) : DecIn :=
  { func := func, b0 := 0, b1 := 0, b2 := 0, b3 := 0, code := 0, hours := 0 }

/-- The encoder, from the same tables (R64 to R66, R73). -/
def encode : Instr → Encoded
  | .init => .cmd initWord
  | .poll cum win raw time hours => .cmd (pollWord cum win raw time hours)
  | .setBase code => .cmd (setBaseWord code)
  | .decIdentity b0 b1 b2 b3 => .dec { selectFunc 0 with b0 := b0, b1 := b1, b2 := b2, b3 := b3 }
  | .decVersion b0 b1 => .dec { selectFunc 1 with b0 := b0, b1 := b1 }
  | .decRainfall b0 b1 b2 b3 => .dec { selectFunc 2 with b0 := b0, b1 := b1, b2 := b2, b3 := b3 }
  | .decRawcount b0 b1 b2 b3 => .dec { selectFunc 3 with b0 := b0, b1 := b1, b2 := b2, b3 := b3 }
  | .decWorktime b0 b1 => .dec { selectFunc 4 with b0 := b0, b1 := b1 }
  | .encBase code => .dec { selectFunc 5 with code := code }
  | .encWindow hours => .dec { selectFunc 6 with hours := hours }

/-- What carries an instruction whose bits, numbered as the opcode table numbers them, are `w`: a row
of 32 bits is a command word, a shorter row (3 bits, in whole bytes 8) is a decoder selection whose
operand ports are 0 (log entry 7). -/
def tableEncoded (nbits w : Nat) : Option Encoded :=
  if 32 ≤ nbits then
    if w < 2 ^ 32 then some (.cmd (BitVec.ofNat 32 w)) else none
  else
    if w < 8 then some (.dec (selectFunc (BitVec.ofNat 3 w))) else none

/-- The instruction this decoder reads from an instruction whose bits are `w`; none where it refuses. -/
def decodeTableWord (nbits w : Nat) : Option Instr :=
  match tableEncoded nbits w with
  | some e => (decode e).toOption
  | none => none

end Sys2Proof
end

