-- ==== Sys2Proof/Machine/State.lean ====
section
/-! DEFINITION. The state of the RDPE as 10_state.md gives it (R17 to R27), the command channel (R98),
the trace (R12), the configuration (R6, R37), and the model's own fields (the schedule of the
agents' moves, the counter of free draws, the outputs of the last decoder operation); the value
after reset (R34, R143, R144). -/

namespace Sys2Proof.Machine

/-- `FSM_STATE` (R17). -/
inductive FsmState where
  | uninit | ready | unusable | busy
  deriving DecidableEq, Repr

/-- `PHASE` (R18). Its values 10 to 15 are never entered and are left out of the type, as R18 and U19
allow. -/
inductive Phase where
  | none | idRd | verRd | select | measRd | winWr | winSettle | winRd | baseWr | baseSettle
  deriving DecidableEq, Repr

/-- A measurement kind (R14, R106), in the order of its index `k`. -/
inductive Kind where
  | cum | win | raw | time
  deriving DecidableEq, Repr

/-- An event of the trace (R12). `reset` is the model's own mark of a reset pulse (log entry 9). -/
inductive Event where
  | cmd (w : Word)
  | treq (q : TReq)
  | trsp (r : TRsp)
  | settleStart
  | settleDone
  | resp (r : Resp)
  | reset
  deriving DecidableEq, Repr

/-- One transition of one agent (R11), as the schedule names it (log entry 1): the Host puts a word
on the command channel; the engine takes its own step, with the draw of SELECT fixed or left free;
the Transport answers; the Settle Timer signals; the reset input is pulsed (R143); the decoder is
given a selection on its input ports (R72). -/
inductive Move where
  | host (w : Word)
  | engine (pick : Option Nat)
  | transport (r : TRsp)
  | timer
  | reset
  | decoder (p : DecIn)
  deriving DecidableEq, Repr

/-- The decoder's output ports after a selection (R72). -/
structure DecOut where
  /-- `OUT_WORD` -/
  word : Word
  /-- `OUT_F0`: product_id (20 bits), or major (4 bits) zero-extended. -/
  f0 : BitVec 20
  /-- `OUT_F1`: vendor_id (16 bits), or minor (4 bits) zero-extended. -/
  f1 : Half
  /-- `OUT_F2`: patch. -/
  f2 : BitVec 4
  /-- `OUT_F3`: build. -/
  f3 : BitVec 4
  /-- `OUT_MATCH` -/
  isMatch : Bool
  /-- `OUT_BYTES[0]` -/
  byte0 : Byte
  /-- `OUT_BYTES[1]` -/
  byte1 : Byte
  /-- `OUT_NBYTES` -/
  nbytes : Nat
  deriving DecidableEq, Repr

/-- Every output at 0. -/
def DecOut.zero : DecOut :=
  { word := 0, f0 := 0, f1 := 0, f2 := 0, f3 := 0, isMatch := false, byte0 := 0, byte1 := 0,
    nbytes := 0 }

/-- Why the machine stops. There is no reason: "There is no `raise`: the RDPE never traps" (R10,
R126), so no meaning and no step can answer with a fault. -/
inductive Fault where
  deriving DecidableEq, Repr

/-- Why the model has no meaning for an instruction. -/
inductive Refusal where
  /-- Raised by an arm of `exec` for an instruction that has no meaning yet; safe. No arm raises it
  now. -/
  | notModelled (mnemonic : String)
  deriving DecidableEq, Repr

/-- The state: the engine's registers, the command channel, the trace and the model's own fields. -/
structure State where
  /-- `FSM_STATE` (R17) -/
  fsm : FsmState
  /-- `PHASE` (R18) -/
  phase : Phase
  /-- `CUR_OP` (R19) -/
  curOp : BitVec 4
  /-- `MEAS` (R20) -/
  meas : Kind
  /-- `PENDING` (R21): bit k for kind k. -/
  pending : BitVec 4
  /-- `HOURS` (R22) -/
  hours : Byte
  /-- `CODE` (R22) -/
  code : Half
  /-- `WR_OK` (R23) -/
  wrOk : Bool
  /-- `XREQ`, and `XFER` = 1 exactly when a request is held (R24, log entry 13). -/
  xreq : Option XReq
  /-- `SETTLE` (R25) -/
  settle : Bool
  /-- `RESP` = RW0..RW4 (R26) -/
  resp : Resp
  /-- `HOSTERR` (R27) -/
  hostErr : Bool
  /-- the word the Host offers on the command channel, if any (R98) -/
  cmd : Option Word
  /-- the configuration (R6, R37): no step writes it -/
  cfg : Config
  /-- MODEL's: the decoder's outputs after the last selection on its own ports (log entry 8) -/
  decOut : DecOut
  /-- MODEL's: the moves of the agents still to come, first the next (log entry 1) -/
  sched : List Move
  /-- MODEL's: how many free draws SELECT has taken (log entry 5) -/
  draws : Nat
  /-- the trace (R12), newest event first (log entry 10) -/
  trace : List Event
  deriving DecidableEq, Repr

/-- `XFER` (R24): a transport request is outstanding. -/
def State.xfer (s : State) : Bool := s.xreq.isSome

/-- The stable states, in which the engine accepts a command (R17). -/
def State.stable (s : State) : Bool := decide (s.fsm ≠ .busy)

/-- The trace in the order the events were emitted (R12). -/
def State.history (s : State) : List Event := s.trace.reverse

/-- The machine right after reset (R34, R143, R144). The model's own fields: the decoder's outputs are
0 before any selection, the schedule names no move, no draw was taken, the trace is empty (DESIGN
CHOICE, log entries 1, 5, 8, 10). The configuration is the standard one (R6). -/
def State.reset : State :=
  { fsm := .uninit, phase := .none, curOp := 0, meas := .cum, pending := 0, hours := 0, code := 0,
    wrOk := false, xreq := none, settle := false, resp := Resp.zero, hostErr := false, cmd := none,
    cfg := Config.standard, decOut := DecOut.zero, sched := [], draws := 0, trace := [] }

end Sys2Proof.Machine
end

