-- ==== Sys2Proof/Machine/Operands.lean ====
section
/-! DEFINITION. Operand forms: the field extractor and the little-endian unpack (40_decoder.md R81 to
R83), the latches' operands (30_encoding.md R77), the measurement kinds and their registers
(41_protocol.md R106), the draw of SELECT (R111). -/

namespace Sys2Proof.Machine

/-- `FIELD(v, hi, lo)` = `v[hi:lo]` (R8, R83). -/
def field {n : Nat} (v : BitVec n) (hi lo : Nat) : BitVec (hi - lo + 1) :=
  (v >>> lo).setWidth (hi - lo + 1)

/-- `LE16(b0, b1)` (R81). -/
def le16 (b0 b1 : Byte) : Half := b0.setWidth 16 ||| b1.setWidth 16 <<< 8

/-- `LE32(b0, b1, b2, b3)` (R82). -/
def le32 (b0 b1 b2 b3 : Byte) : Word :=
  b0.setWidth 32 ||| b1.setWidth 32 <<< 8 ||| b2.setWidth 32 <<< 16 ||| b3.setWidth 32 <<< 24

/-- The request bits of a POLL as PENDING holds them: bit 0 CUM, 1 WIN, 2 RAW, 3 TIME (R21, R77). -/
def requestBits (cum win raw time : Bool) : BitVec 4 :=
  (BitVec.ofBool cum).setWidth 4 ||| (BitVec.ofBool win).setWidth 4 <<< 1
    ||| (BitVec.ofBool raw).setWidth 4 <<< 2 ||| (BitVec.ofBool time).setWidth 4 <<< 3

/-- The index `k` of a kind (R106). -/
def Kind.index : Kind → Nat
  | .cum => 0
  | .win => 1
  | .raw => 2
  | .time => 3

/-- The register a kind reads: for WIN, TIME_RAINFALL (R106). -/
def Kind.reg : Kind → Reg
  | .cum => .cumulativeRainfall
  | .win => .timeRainfall
  | .raw => .rawData
  | .time => .systemTime

/-- `ADDR(k)` (R106). -/
def Kind.addr (k : Kind) : BitVec 8 := k.reg.addr

/-- `WIDTH(k)` (R106). -/
def Kind.width (k : Kind) : Nat := k.reg.width

/-- `PENDING[k] = 1` (R21). -/
def isPending (pending : BitVec 4) (k : Kind) : Bool := pending.getLsbD k.index

/-- `PENDING[k] <- 0` (R111). -/
def clearPending (pending : BitVec 4) (k : Kind) : BitVec 4 := pending &&& ~~~(1#4 <<< k.index)

/-- `{ i | PENDING[i] = 1 }`, in index order (R111). -/
def pendingKinds (pending : BitVec 4) : List Kind :=
  [Kind.cum, Kind.win, Kind.raw, Kind.time].filter (isPending pending)

/-- `choose k in { i | PENDING[i] = 1 }` (R10, R111): every element can be drawn. The draw is a
number, taken modulo the number of pending kinds: the schedule's where it fixes one (0 is the
reference schedule's lowest set bit, R123), else the free value of the counter `draws`. With one
element there is nothing to draw. The second component is the counter afterwards. -/
def drawKind (pick : Option Nat) (draws : Nat) (k : Kind) (ks : List Kind) : Kind × Nat :=
  match ks with
  | [] => (k, draws)
  | _ :: _ =>
    match pick with
    | some i => ((k :: ks).getD (i % (ks.length + 1)) k, draws)
    | none => ((k :: ks).getD (Config.freePick draws % (ks.length + 1)) k, draws + 1)

end Sys2Proof.Machine
end

