-- ==== Sys2Proof/Machine/Flags.lean ====
section
/-! DEFINITION. The status fields: the codes of FSM_STATE, PHASE, STATUS and MST and the layout of RW0
(10_state.md R17, R18; 30_encoding.md R68 to R71). The RDPE has no condition codes (R30). -/

namespace Sys2Proof.Machine

/-- The value of `FSM_STATE` (R17). -/
def FsmState.bits : FsmState → BitVec 2
  | .uninit => 0
  | .ready => 1
  | .unusable => 2
  | .busy => 3

/-- The value of `PHASE` (R18). -/
def Phase.bits : Phase → BitVec 4
  | .none => 0
  | .idRd => 1
  | .verRd => 2
  | .select => 3
  | .measRd => 4
  | .winWr => 5
  | .winSettle => 6
  | .winRd => 7
  | .baseWr => 8
  | .baseSettle => 9

/-- The value of `MEAS` (R20). -/
def Kind.bits (k : Kind) : BitVec 2 := BitVec.ofNat 2 k.index

/-- STATUS (R69). The values 6 to 15 are never produced. -/
inductive Status where
  | ok | identityMismatch | transportError | shortRead | notReady | badCommand
  deriving DecidableEq, Repr

/-- The STATUS code (R69). -/
def Status.bits : Status → BitVec 4
  | .ok => 0
  | .identityMismatch => 1
  | .transportError => 2
  | .shortRead => 3
  | .notReady => 4
  | .badCommand => 5

/-- The STATUS a code names; none for the reserved codes (R69). -/
def Status.ofBits (b : BitVec 4) : Option Status :=
  if b = 0 then some .ok
  else if b = 1 then some .identityMismatch
  else if b = 2 then some .transportError
  else if b = 3 then some .shortRead
  else if b = 4 then some .notReady
  else if b = 5 then some .badCommand
  else none

/-- MST, the per-measurement status (R70). -/
inductive Mst where
  | notRequested | valid | unavailTransport | unavailShort
  deriving DecidableEq, Repr

/-- The MST code (R70). -/
def Mst.bits : Mst → BitVec 2
  | .notRequested => 0
  | .valid => 1
  | .unavailTransport => 2
  | .unavailShort => 3

/-- The MST a code names (R70); every code names one. -/
def Mst.ofBits (b : BitVec 2) : Mst :=
  if b = 0 then .notRequested
  else if b = 1 then .valid
  else if b = 2 then .unavailTransport
  else .unavailShort

/-- `w` with the field of width `n` at bit `lo` replaced by `x`. -/
def insertField {n : Nat} (w : Word) (lo : Nat) (x : BitVec n) : Word :=
  (w &&& ~~~((BitVec.allOnes n).setWidth 32 <<< lo)) ||| x.setWidth 32 <<< lo

/-- STATUS = RW0[3:0] (R68). -/
def rw0Status (w : Word) : BitVec 4 := field w 3 0

/-- OP_ECHO = RW0[7:4] (R68). -/
def rw0OpEcho (w : Word) : BitVec 4 := field w 7 4

/-- FW_VALID = RW0[8] (R68). -/
def rw0FwValid (w : Word) : Bool := w.getLsbD 8

/-- ID_VALID = RW0[9] (R68). -/
def rw0IdValid (w : Word) : Bool := w.getLsbD 9

/-- MST(k) = RW0[11+2k:10+2k] (R68, R106). -/
def rw0Mst (w : Word) (k : Kind) : BitVec 2 := w.extractLsb' (10 + 2 * k.index) 2

/-- `RW0.STATUS <- st` (R68). -/
def setRw0Status (w : Word) (st : Status) : Word := insertField w 0 st.bits

/-- `RW0.FW_VALID <- 1` (R68). -/
def setRw0FwValid (w : Word) : Word := insertField w 8 1#1

/-- `RW0.ID_VALID <- 1` (R68). -/
def setRw0IdValid (w : Word) : Word := insertField w 9 1#1

/-- `MST(k) <- m` (R68, R106). -/
def setRw0Mst (w : Word) (k : Kind) (m : Mst) : Word := insertField w (10 + 2 * k.index) m.bits

/-- RW0 when a command is accepted into BUSY: OP_ECHO, all else 0 (R103, R110, R118). -/
def rw0Accepted (op : BitVec 4) : Word := op.setWidth 32 <<< 4

/-- RW0 of a rejection: `STATUS | OP_ECHO<<4` (R71, R99, R100). -/
def rw0Rejected (st : Status) (op : BitVec 4) : Word := st.bits.setWidth 32 ||| op.setWidth 32 <<< 4

/-- DATA(k) = RW(1+k) (R106). -/
def respData (r : Resp) : Kind → Word
  | .cum => r.rw1
  | .win => r.rw2
  | .raw => r.rw3
  | .time => r.rw4

/-- `DATA(k) <- v` (R106). -/
def setRespData (r : Resp) (k : Kind) (v : Word) : Resp :=
  match k with
  | .cum => { r with rw1 := v }
  | .win => { r with rw2 := v }
  | .raw => { r with rw3 := v }
  | .time => { r with rw4 := v }

end Sys2Proof.Machine
end

