-- ==== Sys2Proof/Machine/Ops.lean ====
section
/-! DEFINITION. The named operations every step is built from: emitting events, issuing a transport
request and taking its answer, arming and ending a settle, writing the response buffer, accepting
and rejecting a command, ending a command, meeting a permanent fault, the reset input. -/

namespace Sys2Proof.Machine

/-- The schedule of the moves still to come (log entry 1). -/
def setSched (l : List Move) (s : State) : State := { s with sched := l }

/-- The Host's word stands on the command channel (R98). -/
def putCmd (w : Word) (s : State) : State := { s with cmd := some w }

/-- `emit e` (R12). -/
def emit (e : Event) (s : State) : State := { s with trace := e :: s.trace }

/-- `emit TReq(...); XFER <- 1` (R10, R24): XREQ holds the request. -/
def issue (q : TReq) (s : State) : State :=
  emit (.treq q) { s with xreq := some q.toXReq }

/-- The Transport's answer arrives: `TRsp(...)` is in the trace and `XFER <- 0` (R24, R104). -/
def takeTRsp (r : TRsp) (s : State) : State :=
  emit (.trsp r) { s with xreq := none }

/-- `emit SettleStart; SETTLE <- 1` (R10, R25, R113). -/
def settleStart (s : State) : State := emit .settleStart { s with settle := true }

/-- The Settle Timer's signal: `SettleDone` is in the trace and `SETTLE <- 0` (R25, R114). -/
def takeSettleDone (s : State) : State := emit .settleDone { s with settle := false }

/-- `PHASE <- p`. -/
def setPhase (p : Phase) (s : State) : State := { s with phase := p }

/-- The response buffer takes the words `r` (R26). -/
def setResp (r : Resp) (s : State) : State := { s with resp := r }

/-- `RW0.STATUS <- st` in the response buffer. -/
def setStatus (st : Status) (s : State) : State :=
  setResp { s.resp with rw0 := setRw0Status s.resp.rw0 st } s

/-- `MST(k) <- m` in the response buffer. -/
def setMst (k : Kind) (m : Mst) (s : State) : State :=
  setResp { s.resp with rw0 := setRw0Mst s.resp.rw0 k m } s

/-- `DATA(k) <- v` in the response buffer. -/
def setData (k : Kind) (v : Word) (s : State) : State := setResp (setRespData s.resp k v) s

/-- `PENDING <- p` (R21). -/
def setPending (p : BitVec 4) (s : State) : State := { s with pending := p }

/-- `MEAS <- k` (R20). -/
def setMeas (k : Kind) (s : State) : State := { s with meas := k }

/-- How many free draws SELECT has taken (log entry 5). -/
def setDraws (n : Nat) (s : State) : State := { s with draws := n }

/-- `HOURS <- h` (R22). -/
def setHours (h : Byte) (s : State) : State := { s with hours := h }

/-- `CODE <- c` (R22). -/
def setCode (c : Half) (s : State) : State := { s with code := c }

/-- `WR_OK <- b` (R23). -/
def setWrOk (b : Bool) (s : State) : State := { s with wrOk := b }

/-- The engine takes the offered word off the command channel and emits `Cmd(w)` (R98). -/
def takeCmd (w : Word) (s : State) : State := emit (.cmd w) { s with cmd := none }

/-- Acceptance into BUSY, common to the three commands (R103, R110, R118): `Cmd(w)`, the response
buffer at zero but for OP_ECHO, CUR_OP, FSM_STATE <- BUSY, PHASE. -/
def accept (w : Word) (op : BitVec 4) (p : Phase) (s : State) : State :=
  { takeCmd w s with
    resp := { Resp.zero with rw0 := rw0Accepted op }
    curOp := op
    fsm := .busy
    phase := p }

/-- A rejection (R67, R99, R100, R131): `Cmd(w)`, the response `STATUS | OP_ECHO<<4` with RW1..RW4 = 0,
HOSTERR <- 1; no transport request and no other register changes. -/
def reject (st : Status) (w : Word) (s : State) : State :=
  { emit (.resp { Resp.zero with rw0 := rw0Rejected st (opField w) }) (takeCmd w s) with
    hostErr := true }

/-- `finish(target)`, the last action of every command that entered BUSY and so the return from it
(R101): the response is emitted, FSM_STATE <- target, PHASE <- NONE, PENDING <- 0. -/
def finish (target : FsmState) (s : State) : State :=
  { emit (.resp s.resp) s with fsm := target, phase := .none, pending := 0 }

/-- Meeting a permanent fault: what takes the place of an exception on the RDPE (R126, R127, R134). The
code is recorded in STATUS and FSM_STATE becomes UNUSABLE; nothing else is saved and no control is
transferred. -/
def permanentFault (st : Status) (s : State) : State := finish .unusable (setStatus st s)

/-- The reset input (R143, R144): every register takes its reset value, the outstanding request and
the armed settle are discarded, no word is offered, nothing is emitted for an aborted command but
the model's mark. The configuration and the model's own fields stay (log entry 9). -/
def resetPulse (s : State) : State :=
  { State.reset with
    cfg := s.cfg
    sched := s.sched
    draws := s.draws
    trace := .reset :: s.trace }

end Sys2Proof.Machine
end

