-- ==== Sys2Proof/Machine/Decoder.lean ====
section
/-! DEFINITION. The decoder family (40_decoder.md R84 to R96): the combinational functions, which the
engine's steps use, and the meaning of each as an operation of its own on the decoder's ports
(30_encoding.md R72, R73; log entry 8). -/

namespace Sys2Proof.Machine

/-- `product_id = b0 | (b1 << 8) | ((b3 & 0xC0) << 10)`, in its 20-bit container (R84). -/
def productId (b0 b1 b3 : Byte) : BitVec 20 :=
  b0.setWidth 20 ||| b1.setWidth 20 <<< 8 ||| (b3 &&& 0xC0).setWidth 20 <<< 10

/-- `vendor_id = b2 | ((b3 & 0x3F) << 8)`, in its 16-bit container (R84). -/
def vendorId (b2 b3 : Byte) : Half := b2.setWidth 16 ||| (b3 &&& 0x3F).setWidth 16 <<< 8

/-- `IDCHECK(product_id, vendor_id)` (R85). -/
def idCheck (pid : BitVec 20) (vid : Half) : Bool :=
  decide (vid = Config.vendorExpected) && decide (pid = Config.productExpected)

/-- The raw firmware version (R87). -/
def versionRaw (b0 b1 : Byte) : Half := le16 b0 b1

/-- major = v[15:12] (R87). -/
def versionMajor (v : Half) : BitVec 4 := field v 15 12

/-- minor = v[11:8] (R87). -/
def versionMinor (v : Half) : BitVec 4 := field v 11 8

/-- patch = v[7:4] (R87). -/
def versionPatch (v : Half) : BitVec 4 := field v 7 4

/-- build = v[3:0] (R87). -/
def versionBuild (v : Half) : BitVec 4 := field v 3 0

/-- The rainfall count (R89). -/
def rainfallCount (b0 b1 b2 b3 : Byte) : Word := le32 b0 b1 b2 b3

/-- The raw accumulator count (R90). -/
def rawCount (b0 b1 b2 b3 : Byte) : Word := le32 b0 b1 b2 b3

/-- The working time in minutes, zero-extended (R91). -/
def workMinutes (b0 b1 : Byte) : Word := (le16 b0 b1).setWidth 32

/-- OUT_BYTES[0] of ENC_BASE: CODE[7:0] (R94). -/
def baseByte0 (code : Half) : Byte := field code 7 0

/-- OUT_BYTES[1] of ENC_BASE: CODE[15:8] (R94). -/
def baseByte1 (code : Half) : Byte := field code 15 8

/-- The BASE_RAINFALL payload, least significant byte first (R94). -/
def basePayload (code : Half) : List Byte := [baseByte0 code, baseByte1 code]

/-- The RAIN_HOUR_WINDOW payload (R96). -/
def windowPayload (hours : Byte) : List Byte := [hours]

/-- The count DECODE(k) gives for an answer of WIDTH(k) bytes; none for a list of any other length
(R106, R112, R129). -/
def decodeMeasurement (k : Kind) (bytes : List Byte) : Option Word :=
  match k, bytes with
  | .cum, [b0, b1, b2, b3] => some (rainfallCount b0 b1 b2 b3)
  | .win, [b0, b1, b2, b3] => some (rainfallCount b0 b1 b2 b3)
  | .raw, [b0, b1, b2, b3] => some (rawCount b0 b1 b2 b3)
  | .time, [b0, b1] => some (workMinutes b0 b1)
  | _, _ => none

/-- The outputs of a selection before the function's rule states any of them: free values of the
function and of the inputs it reads (R72; log entry 8). -/
def freeOutputs (func : Nat) (inputs : List Nat) : DecOut :=
  { word := BitVec.ofNat 32 (Config.freePort 0 func inputs)
    f0 := BitVec.ofNat 20 (Config.freePort 1 func inputs)
    f1 := BitVec.ofNat 16 (Config.freePort 2 func inputs)
    f2 := BitVec.ofNat 4 (Config.freePort 3 func inputs)
    f3 := BitVec.ofNat 4 (Config.freePort 4 func inputs)
    isMatch := decide (Config.freePort 5 func inputs % 2 = 1)
    byte0 := BitVec.ofNat 8 (Config.freePort 6 func inputs)
    byte1 := BitVec.ofNat 8 (Config.freePort 7 func inputs)
    nbytes := Config.freePort 8 func inputs }

/-- The ports DEC_IDENTITY drives (R73, R84). -/
def decIdentityOut (b0 b1 b2 b3 : Byte) : DecOut :=
  { freeOutputs 0 [b0.toNat, b1.toNat, b2.toNat, b3.toNat] with
    word := le32 b0 b1 b2 b3
    f0 := productId b0 b1 b3
    f1 := vendorId b2 b3
    isMatch := idCheck (productId b0 b1 b3) (vendorId b2 b3) }

/-- The ports DEC_VERSION drives (R73, R87). -/
def decVersionOut (b0 b1 : Byte) : DecOut :=
  { freeOutputs 1 [b0.toNat, b1.toNat] with
    word := (versionRaw b0 b1).setWidth 32
    f0 := (versionMajor (versionRaw b0 b1)).setWidth 20
    f1 := (versionMinor (versionRaw b0 b1)).setWidth 16
    f2 := versionPatch (versionRaw b0 b1)
    f3 := versionBuild (versionRaw b0 b1) }

/-- The ports DEC_RAINFALL drives (R73, R89). -/
def decRainfallOut (b0 b1 b2 b3 : Byte) : DecOut :=
  { freeOutputs 2 [b0.toNat, b1.toNat, b2.toNat, b3.toNat] with word := rainfallCount b0 b1 b2 b3 }

/-- The ports DEC_RAWCOUNT drives (R73, R90). -/
def decRawcountOut (b0 b1 b2 b3 : Byte) : DecOut :=
  { freeOutputs 3 [b0.toNat, b1.toNat, b2.toNat, b3.toNat] with word := rawCount b0 b1 b2 b3 }

/-- The ports DEC_WORKTIME drives (R73, R91). -/
def decWorktimeOut (b0 b1 : Byte) : DecOut :=
  { freeOutputs 4 [b0.toNat, b1.toNat] with word := workMinutes b0 b1 }

/-- The ports ENC_BASE drives (R73, R94). -/
def encBaseOut (code : Half) : DecOut :=
  { freeOutputs 5 [code.toNat] with
    byte0 := baseByte0 code
    byte1 := baseByte1 code
    nbytes := 2 }

/-- The ports ENC_WINDOW drives (R73, R96). -/
def encWindowOut (hours : Byte) : DecOut :=
  { freeOutputs 6 [hours.toNat] with byte0 := hours, nbytes := 1 }

/-- "A decoder given FUNC = 7 drives every output to 0" (R74). -/
def reservedFuncOut : DecOut := DecOut.zero

/-- The decoder's ports take the given outputs; the decoder is combinational, so nothing else changes
(R72). -/
def driveOutputs (o : DecOut) (s : State) : State := { s with decOut := o }

/-- DEC_IDENTITY (R84, R85). -/
def execDecIdentity (b0 b1 b2 b3 : Byte) (s : State) : Host.Outcome State Fault Refusal :=
  .next (driveOutputs (decIdentityOut b0 b1 b2 b3) s)

/-- DEC_VERSION (R87). -/
def execDecVersion (b0 b1 : Byte) (s : State) : Host.Outcome State Fault Refusal :=
  .next (driveOutputs (decVersionOut b0 b1) s)

/-- DEC_RAINFALL (R89). -/
def execDecRainfall (b0 b1 b2 b3 : Byte) (s : State) : Host.Outcome State Fault Refusal :=
  .next (driveOutputs (decRainfallOut b0 b1 b2 b3) s)

/-- DEC_RAWCOUNT (R90). -/
def execDecRawcount (b0 b1 b2 b3 : Byte) (s : State) : Host.Outcome State Fault Refusal :=
  .next (driveOutputs (decRawcountOut b0 b1 b2 b3) s)

/-- DEC_WORKTIME (R91). -/
def execDecWorktime (b0 b1 : Byte) (s : State) : Host.Outcome State Fault Refusal :=
  .next (driveOutputs (decWorktimeOut b0 b1) s)

/-- ENC_BASE (R94). -/
def execEncBase (code : Half) (s : State) : Host.Outcome State Fault Refusal :=
  .next (driveOutputs (encBaseOut code) s)

/-- ENC_WINDOW (R96). -/
def execEncWindow (hours : Byte) (s : State) : Host.Outcome State Fault Refusal :=
  .next (driveOutputs (encWindowOut hours) s)

end Sys2Proof.Machine
end

