-- ==== Sys2Proof/Machine/Init.lean ====
section
/-! DEFINITION. INIT (41_protocol.md R102): its acceptance, which is the meaning of the instruction
word, and the two steps that end it (R103 to R105). -/

namespace Sys2Proof.Machine

/-- T1, the identity read (R76, R103). -/
def reqIdentity : TReq := .read Reg.productId.addr Reg.productId.width

/-- T2, the version read (R76, R104). -/
def reqVersion : TReq := .read Reg.version.addr Reg.version.width

/-- The acceptance step of INIT (R103). -/
def acceptInit (s : State) : State := issue reqIdentity (accept initWord 1 .idRd s)

/-- INIT on the command channel (R98, R102): accepted in every stable state, held while BUSY. -/
def execInit (s : State) : Host.Outcome State Fault Refusal :=
  match s.fsm with
  | .busy => .next s
  | .uninit => .next (acceptInit s)
  | .ready => .next (acceptInit s)
  | .unusable => .next (acceptInit s)

/-- The identity fields go into the response buffer: `RW2 <- zext_32(pid); RW3 <- zext_32(vid);
RW0.ID_VALID <- 1` (R104). -/
def setIdentity (pid : BitVec 20) (vid : Half) (s : State) : State :=
  setResp { s.resp with
    rw0 := setRw0IdValid s.resp.rw0, rw2 := pid.setWidth 32, rw3 := vid.setWidth 32 } s

/-- The firmware version goes into the response buffer: `RW1 <- zext_32(LE16(b0, b1));
RW0.FW_VALID <- 1` (R105). -/
def setVersion (v : Half) (s : State) : State :=
  setResp { s.resp with rw0 := setRw0FwValid s.resp.rw0, rw1 := v.setWidth 32 } s

/-- What ID_RD does once the identity is decoded (R104): mismatch, version read, or end. -/
def idRdChecked (pid : BitVec 20) (vid : Half) (s : State) : State :=
  match idCheck pid vid, s.cfg.readVersionAtInit with
  | false, _ => permanentFault .identityMismatch s
  | true, true => issue reqVersion (setPhase .verRd s)
  | true, false => finish .ready (setStatus .ok s)

/-- The ID_RD step, on the answer to T1 (R104, R132). -/
def idRdStep (r : ReadRsp) (s : State) : State :=
  match r with
  | .err => permanentFault .transportError (takeTRsp r.toTRsp s)
  | .data [b0, b1, b2, b3] =>
    idRdChecked (productId b0 b1 b3) (vendorId b2 b3)
      (setIdentity (productId b0 b1 b3) (vendorId b2 b3) (takeTRsp r.toTRsp s))
  | .data _ => permanentFault .shortRead (takeTRsp r.toTRsp s)

/-- The VER_RD step, on the answer to T2 (R105): a failed version read is no fault. -/
def verRdStep (r : ReadRsp) (s : State) : State :=
  match r with
  | .data [b0, b1] =>
    finish .ready (setStatus .ok (setVersion (versionRaw b0 b1) (takeTRsp r.toTRsp s)))
  | .data _ => finish .ready (setStatus .ok (takeTRsp r.toTRsp s))
  | .err => finish .ready (setStatus .ok (takeTRsp r.toTRsp s))

end Sys2Proof.Machine
end

