-- ==== Sys2Proof/Machine/Poll.lean ====
section
/-! DEFINITION. POLL (41_protocol.md R109): its acceptance or rejection, which is the meaning of the
instruction word, and the steps of the polling cycle (R110 to R115). -/

namespace Sys2Proof.Machine

/-- T3, T5, T6 or T7: the read of a kind (R76, R106). -/
def reqMeasurement (k : Kind) : TReq := .read k.addr k.width

/-- T4, the window write (R76, R111). -/
def reqWindow (hours : Byte) : TReq := .write Reg.rainHourWindow.addr (windowPayload hours)

/-- The acceptance step of POLL (R110). -/
def acceptPoll (cum win raw time : Bool) (hours : Byte) (s : State) : State :=
  setHours hours (setPending (requestBits cum win raw time)
    (accept (pollWord cum win raw time hours) 2 .select s))

/-- POLL on the command channel (R98, R100, R109): accepted in READY, rejected NOT_READY in UNINIT and
UNUSABLE, held while BUSY. -/
def execPoll (cum win raw time : Bool) (hours : Byte) (s : State) :
    Host.Outcome State Fault Refusal :=
  match s.fsm with
  | .busy => .next s
  | .ready => .next (acceptPoll cum win raw time hours s)
  | .uninit => .next (reject .notReady (pollWord cum win raw time hours) s)
  | .unusable => .next (reject .notReady (pollWord cum win raw time hours) s)

/-- The part of SELECT after the draw (R111): the measurement leaves PENDING and its first request is
issued. -/
def startMeasurement (k : Kind) (s : State) : State :=
  match k with
  | .win => issue (reqWindow s.hours) (setPhase .winWr (setPending (clearPending s.pending .win) s))
  | .cum =>
    issue (reqMeasurement .cum)
      (setPhase .measRd (setMeas .cum (setPending (clearPending s.pending .cum) s)))
  | .raw =>
    issue (reqMeasurement .raw)
      (setPhase .measRd (setMeas .raw (setPending (clearPending s.pending .raw) s)))
  | .time =>
    issue (reqMeasurement .time)
      (setPhase .measRd (setMeas .time (setPending (clearPending s.pending .time) s)))

/-- The SELECT step (R111). -/
def selectStep (pick : Option Nat) (s : State) : State :=
  match pendingKinds s.pending with
  | [] => finish .ready (setStatus .ok s)
  | k :: ks =>
    startMeasurement (drawKind pick s.draws k ks).1
      (setDraws (drawKind pick s.draws k ks).2 s)

/-- The result of a measurement's read goes into the response buffer (R112, R115): UNAVAIL_TRANSPORT,
UNAVAIL_SHORT, or VALID with its count. -/
def recordRead (k : Kind) (r : ReadRsp) (s : State) : State :=
  match r with
  | .err => setMst k .unavailTransport s
  | .data bytes =>
    match decodeMeasurement k bytes with
    | some v => setData k v (setMst k .valid s)
    | none => setMst k .unavailShort s

/-- The MEAS_RD step, on the answer to the read of MEAS (R112). -/
def measRdStep (r : ReadRsp) (s : State) : State :=
  setPhase .select (recordRead s.meas r (takeTRsp r.toTRsp s))

/-- The WIN_WR step, on the answer to T4 (R113): the settle is armed whether the write succeeded or
not. -/
def winWrStep (r : WriteRsp) (s : State) : State :=
  setPhase .winSettle (settleStart (setWrOk (decide (r = .ok)) (takeTRsp r.toTRsp s)))

/-- The WIN_SETTLE step, on SettleDone (R114). -/
def winSettleStep (s : State) : State :=
  match s.wrOk with
  | true => issue (reqMeasurement .win) (setPhase .winRd (takeSettleDone s))
  | false => setPhase .select (setMst .win .unavailTransport (takeSettleDone s))

/-- The WIN_RD step, on the answer to T5 (R115). -/
def winRdStep (r : ReadRsp) (s : State) : State :=
  setPhase .select (recordRead .win r (takeTRsp r.toTRsp s))

end Sys2Proof.Machine
end

