-- ==== Sys2Proof/Machine/SetBase.lean ====
section
/-! DEFINITION. SET_BASE (41_protocol.md R117): its acceptance or rejection, which is the meaning of
the instruction word, and the two steps that end it (R118 to R120). -/

namespace Sys2Proof.Machine

/-- T8, the base write (R76, R118). -/
def reqBase (code : Half) : TReq := .write Reg.baseRainfall.addr (basePayload code)

/-- The acceptance step of SET_BASE (R118). -/
def acceptSetBase (code : Half) (s : State) : State :=
  issue (reqBase code) (setCode code (accept (setBaseWord code) 3 .baseWr s))

/-- SET_BASE on the command channel (R98, R100, R117): accepted in READY, rejected NOT_READY in UNINIT
and UNUSABLE, held while BUSY. -/
def execSetBase (code : Half) (s : State) : Host.Outcome State Fault Refusal :=
  match s.fsm with
  | .busy => .next s
  | .ready => .next (acceptSetBase code s)
  | .uninit => .next (reject .notReady (setBaseWord code) s)
  | .unusable => .next (reject .notReady (setBaseWord code) s)

/-- The BASE_WR step, on the answer to T8 (R119). -/
def baseWrStep (r : WriteRsp) (s : State) : State :=
  setPhase .baseSettle (settleStart (setWrOk (decide (r = .ok)) (takeTRsp r.toTRsp s)))

/-- The BASE_SETTLE step, on SettleDone (R120): the fault of a failed write is not permanent. -/
def baseSettleStep (s : State) : State :=
  match s.wrOk with
  | true => finish .ready (setStatus .ok (takeSettleDone s))
  | false => finish .ready (setStatus .transportError (takeSettleDone s))

end Sys2Proof.Machine
end

