-- ==== Sys2Proof/Machine/Dispatch.lean ====
section
/-! DEFINITION. The meaning of each instruction, one arm per constructor. -/

namespace Sys2Proof.Machine

def exec (i : Instr) (s : State) : Host.Outcome State Fault Refusal :=
  match i with
  -- host commands (41_protocol.md)
  | .init => Sys2Proof.Machine.execInit s
  | .poll cum win raw time hours => Sys2Proof.Machine.execPoll cum win raw time hours s
  | .setBase code => Sys2Proof.Machine.execSetBase code s
  -- decoder functions (40_decoder.md)
  | .decIdentity b0 b1 b2 b3 => Sys2Proof.Machine.execDecIdentity b0 b1 b2 b3 s
  | .decVersion b0 b1 => Sys2Proof.Machine.execDecVersion b0 b1 s
  | .decRainfall b0 b1 b2 b3 => Sys2Proof.Machine.execDecRainfall b0 b1 b2 b3 s
  | .decRawcount b0 b1 b2 b3 => Sys2Proof.Machine.execDecRawcount b0 b1 b2 b3 s
  | .decWorktime b0 b1 => Sys2Proof.Machine.execDecWorktime b0 b1 s
  | .encBase code => Sys2Proof.Machine.execEncBase code s
  | .encWindow hours => Sys2Proof.Machine.execEncWindow hours s

end Sys2Proof.Machine
end

