-- ==== Sys2Proof/Machine/Agents.lean ====
section
/-! DEFINITION. The agents' moves (00_scope.md R11; 41_protocol.md R97, R98, R122): which engine step a
move takes, where a command word or a decoder selection is fetched, and what a move that is not
enabled does (nothing). -/

namespace Sys2Proof.Machine

/-- The Host puts a word on the command channel (R98). It offers one word at a time (R147): while a
word stands on the channel there is no such move (log entry 11). -/
def hostOffer (w : Word) (s : State) : State :=
  match s.cmd with
  | none => putCmd w s
  | some _ => s

/-- A stable engine takes the offered word (R97, R98, R132): a reserved word is rejected BAD_COMMAND
before any other check (R99), every other word is the instruction the decoder reads. -/
def fetchCmd (s : State) : Host.Outcome State Fault Refusal :=
  match s.cmd with
  | none => .next s
  | some w =>
    match decode (.cmd w) with
    | .ok i => exec i s
    | .error _ => .next (reject .badCommand w s)

/-- The engine's own step (R97): acceptance in a stable state, SELECT in phase SELECT; in every other
phase the engine waits and takes no step of its own. -/
def engineStep (pick : Option Nat) (s : State) : Host.Outcome State Fault Refusal :=
  match s.fsm with
  | .busy =>
    match s.phase with
    | .select => .next (selectStep pick s)
    | .none => .next s
    | .idRd => .next s
    | .verRd => .next s
    | .measRd => .next s
    | .winWr => .next s
    | .winSettle => .next s
    | .winRd => .next s
    | .baseWr => .next s
    | .baseSettle => .next s
  | .uninit => fetchCmd s
  | .ready => fetchCmd s
  | .unusable => fetchCmd s

/-- The step that takes the answer to a READ (R97); in a phase that waits for none there is no such
step. -/
def readAnswered (r : ReadRsp) (s : State) : State :=
  match s.phase with
  | .idRd => idRdStep r s
  | .verRd => verRdStep r s
  | .measRd => measRdStep r s
  | .winRd => winRdStep r s
  | .none => s
  | .select => s
  | .winWr => s
  | .winSettle => s
  | .baseWr => s
  | .baseSettle => s

/-- The step that takes the answer to a WRITE (R97); in a phase that waits for none there is no such
step. -/
def writeAnswered (r : WriteRsp) (s : State) : State :=
  match s.phase with
  | .winWr => winWrStep r s
  | .baseWr => baseWrStep r s
  | .none => s
  | .idRd => s
  | .verRd => s
  | .select => s
  | .measRd => s
  | .winSettle => s
  | .winRd => s
  | .baseSettle => s

/-- The Transport's move (R122): it answers only the outstanding request, a READ with DATA or ERR, a
WRITE with OK or ERR; any other answer does not exist, so it changes nothing (log entry 2). -/
def transportAnswer (r : TRsp) (s : State) : State :=
  match s.xreq with
  | none => s
  | some q =>
    match q.kind with
    | .read =>
      match r.asRead with
      | some a => readAnswered a s
      | none => s
    | .write =>
      match r.asWrite with
      | some a => writeAnswered a s
      | none => s

/-- The Settle Timer's move (R122, R136): it signals only an armed settle. -/
def timerSignal (s : State) : State :=
  match s.settle, s.phase with
  | false, _ => s
  | true, .winSettle => winSettleStep s
  | true, .baseSettle => baseSettleStep s
  | true, .none => s
  | true, .idRd => s
  | true, .verRd => s
  | true, .select => s
  | true, .measRd => s
  | true, .winWr => s
  | true, .winRd => s
  | true, .baseWr => s

/-- A selection on the decoder's ports (R72 to R74): the function FUNC names, or for the reserved
FUNC = 7 every output at 0. -/
def decoderSelect (p : DecIn) (s : State) : Host.Outcome State Fault Refusal :=
  match decode (.dec p) with
  | .ok i => exec i s
  | .error _ => .next (driveOutputs reservedFuncOut s)

/-- One transition of the agent the move names (R11). -/
def makeMove (m : Move) (s : State) : Host.Outcome State Fault Refusal :=
  match m with
  | .host w => .next (hostOffer w s)
  | .engine pick => engineStep pick s
  | .transport r => .next (transportAnswer r s)
  | .timer => .next (timerSignal s)
  | .reset => .next (resetPulse s)
  | .decoder p => decoderSelect p s

/-- One step of the machine (R11): the next move of the schedule; where the schedule names none, the
engine's own step with its draw left free, in which a waiting engine stays as it is (R121, log entry
12). -/
def runNextMove (s : State) : Host.Outcome State Fault Refusal :=
  match s.sched with
  | [] => engineStep none s
  | m :: rest => makeMove m (setSched rest s)

/-- An instruction placed where the next step takes it: a command word on the command channel with the
engine to move, or a selection on the decoder's ports (log entry 7). -/
def placeInstruction (e : Encoded) (s : State) : State :=
  match e with
  | .cmd w => setSched (.engine none :: s.sched) (putCmd w s)
  | .dec p => setSched (.decoder p :: s.sched) s

/-- The instruction whose bits, numbered as the opcode table numbers them, are `w`, placed where the
next step takes it (log entry 7). -/
def placeTableWord (s : State) (nbits w : Nat) : State :=
  if 32 ≤ nbits then placeInstruction (.cmd (BitVec.ofNat 32 w)) s
  else placeInstruction (.dec (selectFunc (BitVec.ofNat 3 w))) s

end Sys2Proof.Machine
end

