-- ==== Sys2Proof/Machine/Step.lean ====
section
/-! DEFINITION. One step of the machine, and where an instruction is placed for it. -/

namespace Sys2Proof.Machine

/-- One atomic transition of one agent (00_scope.md R11). -/
def step (s : State) : Host.Outcome State Fault Refusal := runNextMove s

/-- The state with an instruction placed so that the next step runs it (log entry 7). -/
def State.withFetchWord (s : State) (nbits w : Nat) : State := placeTableWord s nbits w

end Sys2Proof.Machine
end

