-- ==== Sys2Proof/Machine/Binary64.lean ====
section
/-! DEFINITION. The binary64 values the host adapter renders and reads (40_decoder.md R93, R95).
PRESUMED: the binary64 format and its rounding are IEEE 754's, general knowledge the spec itself
marks as such (93_implementation_defined.md G1 to G3; log entry 15). No step of the machine uses a
floating value. -/

namespace Sys2Proof.Machine

/-- What the 64 bits of a binary64 encoding stand for: not a number, an infinity, or the number
(-1)^neg * mant * 2^exp. -/
inductive F64Value where
  | nan
  | inf (neg : Bool)
  | finite (neg : Bool) (mant : Nat) (exp : Int)
  deriving DecidableEq, Repr

/-- The value of an encoding: sign bit 63, exponent field [62:52], fraction [51:0]. -/
def f64Value (x : BitVec 64) : F64Value :=
  let neg := x.getLsbD 63
  let e := (x.extractLsb' 52 11).toNat
  let f := (x.extractLsb' 0 52).toNat
  if e = 2047 then (if f = 0 then .inf neg else .nan)
  else if e = 0 then .finite neg f (-1074)
  else .finite neg (2 ^ 52 + f) ((e : Int) - 1075)

/-- The natural number nearest to `num / den`, ties to even. -/
def nearestEven (num den : Nat) : Nat :=
  let q := num / den
  let r := num % den
  if 2 * r < den then q
  else if den < 2 * r then q + 1
  else if q % 2 = 0 then q else q + 1

/-- `m * 2^e` as a fraction. -/
def dyadic (m : Nat) (e : Int) : Nat × Nat :=
  if 0 ≤ e then (m * 2 ^ e.toNat, 1) else (m, 2 ^ (-e).toNat)

/-- `(p / q) / 2^e` as a fraction. -/
def scaleDown (p q : Nat) (e : Int) : Nat × Nat :=
  if 0 ≤ e then (p, q * 2 ^ e.toNat) else (p * 2 ^ (-e).toNat, q)

/-- The exponent at which `p / q` (p, q > 0) has a 53-bit integer part, but not below the exponent of
the subnormal numbers. -/
def roundingExponent (p q : Nat) : Int :=
  let e := (Nat.log2 p : Int) - (Nat.log2 q : Int) - 52
  let s := scaleDown p q e
  max (if s.1 / s.2 < 2 ^ 52 then e - 1 else e) (-1074)

/-- The encoding of (-1)^neg * m * 2^e for m ≤ 2^53, e ≥ -1074, where m < 2^52 only if e = -1074; past
the largest finite number, the infinity. -/
def encodeF64 (neg : Bool) (m : Nat) (e : Int) : BitVec 64 :=
  let sign : Nat := if neg then 2 ^ 63 else 0
  let carried := decide (m = 2 ^ 53)
  let m := if carried then 2 ^ 52 else m
  let e := if carried then e + 1 else e
  if m < 2 ^ 52 then BitVec.ofNat 64 (sign + m)
  else
    let biased := (e + 1075).toNat
    if 2047 ≤ biased then BitVec.ofNat 64 (sign + 2047 * 2 ^ 52)
    else BitVec.ofNat 64 (sign + biased * 2 ^ 52 + (m - 2 ^ 52))

/-- The binary64 number nearest to (-1)^neg * p / q (q > 0), ties to even (R93). -/
def nearestF64 (neg : Bool) (p q : Nat) : BitVec 64 :=
  if p = 0 then encodeF64 neg 0 (-1074)
  else
    let e := roundingExponent p q
    let s := scaleDown p q e
    encodeF64 neg (nearestEven s.1 s.2) e

/-- `toF64(p/q)` (R93). -/
def toF64 (p q : Nat) : BitVec 64 := nearestF64 false p q

/-- The binary64 product of a finite number and a natural number that is exact in binary64. -/
def mulF64 (neg : Bool) (mant : Nat) (exp : Int) (n : Nat) : BitVec 64 :=
  let d := dyadic (mant * n) exp
  nearestF64 neg d.1 d.2

end Sys2Proof.Machine
end

