-- ==== Sys2Proof/Machine/HostAdapter.lean ====
section
/-! DEFINITION. The host adapter: stateless functions between the host's calls and the RDPE's words
(10_state.md R38; 30_encoding.md R80; 40_decoder.md R88, R89, R91, R93, R95; 41_protocol.md R124). -/

namespace Sys2Proof.Machine

/-- "major.minor.patch.build", each field an unsigned decimal number without leading zeros (R88). -/
def versionString (v : Half) : String :=
  toString (versionMajor v).toNat ++ "." ++ toString (versionMinor v).toNat ++ "."
    ++ toString (versionPatch v).toNat ++ "." ++ toString (versionBuild v).toNat

/-- `value_mm = count / RAIN_SCALE`, an exact rational (R89). -/
def rainfallMm (count : Word) : Rat := mkRat count.toNat Config.rainScale

/-- `value_h = minutes / TIME_SCALE`, an exact rational (R91). -/
def workHours (minutes : Word) : Rat := mkRat minutes.toNat Config.timeScale

/-- The floating rendering of a rainfall count (R93). -/
def rainfallF64 (count : Word) : BitVec 64 := toF64 count.toNat Config.rainScale

/-- The floating rendering of a working time (R93). -/
def workHoursF64 (minutes : Word) : BitVec 64 := toF64 minutes.toNat Config.timeScale

/-- `baseQuantize(v)` of the 64 bits of a binary64 value (R95): none where it refuses. The product
with 10000.0 is rounded to binary64; NaN, p <= -0.5 and p >= 65535.5 are refused; the code is
floor(|p| + 0.5), which is 0 for the accepted negative products. -/
def baseQuantize (v : BitVec 64) : Option Half :=
  match f64Value v with
  | .nan => none
  | .inf _ => none
  | .finite neg mant exp =>
    match f64Value (mulF64 neg mant exp Config.rainScale) with
    | .nan => none
    | .inf _ => none
    | .finite negP m e =>
      let d := dyadic m e
      if negP && decide (d.2 ≤ 2 * d.1) then none
      else if decide (131071 * d.2 ≤ 2 * d.1) then none
      else some (BitVec.ofNat 16 ((2 * d.1 + d.2) / (2 * d.2)))

/-- A fault as the host sees it: the one STATUS names (R80, R69). DESIGN CHOICE: `notReady`, `badCommand`
and `reservedStatus` stand for the codes 4, 5 and 6 to 15, for which R69 names no source fault (log
entry 24). -/
inductive HostFault where
  | identityMismatch | transportError | shortRead | notReady | badCommand
  /-- a reserved STATUS code, which is never produced (R69) -/
  | reservedStatus
  deriving DecidableEq, Repr

/-- `Ok` for STATUS = OK, else the name STATUS has (R80, R69; log entry 24). -/
def hostStatus (r : Resp) : Except HostFault Unit :=
  match Status.ofBits (rw0Status r.rw0) with
  | some .ok => .ok ()
  | some .identityMismatch => .error .identityMismatch
  | some .transportError => .error .transportError
  | some .shortRead => .error .shortRead
  | some .notReady => .error .notReady
  | some .badCommand => .error .badCommand
  | none => .error .reservedStatus

/-- The result of `initialize()`: `Ok(Some v)`, `Ok(None)` or `Err(fault)` (R80). -/
def hostInitialize (r : Resp) : Except HostFault (Option Half) :=
  match hostStatus r with
  | .ok _ => .ok (if rw0FwValid r.rw0 then some (r.rw1.setWidth 16) else none)
  | .error f => .error f

/-- The result of `set_base_rainfall(v)`: `Ok(())` when STATUS = OK (R80). DESIGN CHOICE: for every other
STATUS, NOT_READY and BAD_COMMAND among them, it is `Err` of the name STATUS has; R80 gives no result
there (log entry 24). -/
def hostSetBase (r : Resp) : Except HostFault Unit := hostStatus r

/-- A published value (R124): millimetres, a raw count, hours, or Unavailable. -/
inductive Published where
  | millimetres (v : Rat)
  | count (v : Nat)
  | hours (v : Rat)
  | unavailable
  deriving DecidableEq

/-- The decoded value of a kind's data word (R89 to R91). -/
def publishedValue (k : Kind) (w : Word) : Published :=
  match k with
  | .cum => .millimetres (rainfallMm w)
  | .win => .millimetres (rainfallMm w)
  | .raw => .count w.toNat
  | .time => .hours (workHours w)

/-- What the host gets for a requested kind: its value when MST is VALID, `Unavailable` otherwise
(R80, R124). -/
def publish (k : Kind) (r : Resp) : Published :=
  if Mst.ofBits (rw0Mst r.rw0 k) = .valid then publishedValue k (respData r k) else .unavailable

/-- The result of `poll(requested)`: a mapping of each requested kind to its value or `Unavailable`
(R80). -/
def hostPoll (cum win raw time : Bool) (r : Resp) : List (Kind × Published) :=
  (pendingKinds (requestBits cum win raw time)).map (fun k => (k, publish k r))

end Sys2Proof.Machine
end

