-- ==== Sys2Proof/Machine/Assembler.lean ====
section
/-! DEFINITION. The assembler of 30_encoding.md R78: from a statement to the instruction, and from the
text of a statement to the statement. -/

namespace Sys2Proof.Machine

/-- The windowed request's hours among the items of a POLL; 0 when `win` is absent (R78). -/
def itemsHours (items : List PollItem) : Nat :=
  match items with
  | [] => 0
  | .win h :: _ => h
  | _ :: rest => itemsHours rest

/-- The POLL a list of items stands for (R78). -/
def assemblePoll (items : List PollItem) : Instr :=
  let (c, w, r, t) := PollItem.counts items
  .poll (decide (0 < c)) (decide (0 < w)) (decide (0 < r)) (decide (0 < t))
    (BitVec.ofNat 8 (itemsHours items))

/-- The instruction a statement assembles to (R78); none for a statement that is not well-formed, and
for `SETBASE.MM v` when `baseQuantize(v)` is refused (R95). -/
def assemble (a : Asm) : Option Instr :=
  if a.wf then
    match a with
    | .init => some .init
    | .poll items => some (assemblePoll items)
    | .setBase c => some (.setBase (BitVec.ofNat 16 c))
    | .pollAll h => some (assemblePoll [.cum, .win h, .raw, .time])
    | .pollWin h => some (assemblePoll [.win h])
    | .setBaseMm v => (baseQuantize v).map Instr.setBase
  else none

/-- The pieces of a text between the characters `sep`. -/
def splitOnChar (sep : Char) (text : List Char) : List (List Char) :=
  match text with
  | [] => [[]]
  | c :: rest =>
    if c = sep then [] :: splitOnChar sep rest
    else
      match splitOnChar sep rest with
      | [] => [[c]]
      | piece :: pieces => (c :: piece) :: pieces

/-- A text without the blanks around it. -/
def trimBlanks (text : List Char) : List Char :=
  ((text.dropWhile (· = ' ')).reverse.dropWhile (· = ' ')).reverse

/-- The digits in the order of their values. -/
def digitOrder : List Char := "0123456789abcdef".toList

/-- The value of a digit of a base up to 16, a letter in either case; none for any other character. -/
def digitValue (base : Nat) (c : Char) : Option Nat := (digitOrder.take base).idxOf? c.toLower

/-- The number that a text of digits of a base stands for, the most significant first. -/
def readDigits (base : Nat) (text : List Char) : Option Nat :=
  text.foldlM (fun acc c => (digitValue base c).map (base * acc + ·)) 0

/-- A number, "decimal ... or hex" with the marker `0x` (R78, R9); none for an empty text. -/
def readNumber (text : List Char) : Option Nat :=
  match text with
  | [] => none
  | ['0', 'x'] => none
  | '0' :: 'x' :: digits => readDigits 16 digits
  | digits => readDigits 10 digits

/-- One item of a POLL statement: `cum`, `win=H`, `raw`, `time` (R78). -/
def readItem (text : List Char) : Option PollItem :=
  match trimBlanks text with
  | ['c', 'u', 'm'] => some .cum
  | ['r', 'a', 'w'] => some .raw
  | ['t', 'i', 'm', 'e'] => some .time
  | 'w' :: 'i' :: 'n' :: '=' :: h => (readNumber h).map PollItem.win
  | _ => none

/-- The items after POLL, separated by commas; none at all is "POLL alone" (R78). -/
def readItems (text : List Char) : Option (List PollItem) :=
  if trimBlanks text = [] then some []
  else (splitOnChar ',' text).mapM readItem

/-- A millimetre value without its sign: digits, and a fraction after a point if there is one, as the
nearest binary64 value (log entry 19). -/
def readMillimetres (neg : Bool) (text : List Char) : Option (BitVec 64) :=
  match splitOnChar '.' text with
  | [whole] => if whole = [] then none else (readDigits 10 whole).map (fun n => nearestF64 neg n 1)
  | [whole, frac] =>
    if whole = [] || frac = [] then none
    else (readDigits 10 (whole ++ frac)).map (fun n => nearestF64 neg n (10 ^ frac.length))
  | _ => none

/-- A millimetre value, with a minus sign if there is one. -/
def readSignedMillimetres (text : List Char) : Option (BitVec 64) :=
  match text with
  | '-' :: rest => readMillimetres true rest
  | _ => readMillimetres false text

/-- The statement a text stands for (R78): the statement's name, a blank, its operands. -/
def readStatement (text : String) : Option Asm :=
  let chars := trimBlanks text.toList
  let name := chars.takeWhile (· ≠ ' ')
  let rest := trimBlanks (chars.drop name.length)
  if name = "INIT".toList then (if rest = [] then some .init else none)
  else if name = "POLL".toList then (readItems rest).map Asm.poll
  else if name = "SETBASE".toList then (readNumber rest).map Asm.setBase
  else if name = "POLL.ALL".toList then (readNumber rest).map Asm.pollAll
  else if name = "POLL.WIN".toList then (readNumber rest).map Asm.pollWin
  else if name = "SETBASE.MM".toList then (readSignedMillimetres rest).map Asm.setBaseMm
  else none

/-- The command word a text assembles to (R78). -/
def assembleText (text : String) : Option Word :=
  match (readStatement text).bind assemble with
  | some i =>
    match encode i with
    | .cmd w => some w
    | .dec _ => none
  | none => none

end Sys2Proof.Machine
end

