-- ==== Sys2Proof/Safety.lean ====
section
/-! DEFINITION. The terms in which claims are stated: the invariants of the engine's state (10_state.md
R36), the trace properties P1 to P6 (70_reset_and_hazards.md R152), the link between the state and
the trace, a closed loop with a Transport that answers (R122, R123, R153), the responses the rules
give a whole command, the host's duties (R147), quiescence (R125) and the timed refinement (R156). -/

namespace Sys2Proof.Machine

/-! ## The engine's state -/

/-- The phases that wait for a `TRsp` (R36). -/
def Phase.awaitsAnswer : Phase → Bool
  | .idRd | .verRd | .measRd | .winWr | .winRd | .baseWr => true
  | .none | .select | .winSettle | .baseSettle => false

/-- The phases that wait for a `SettleDone` (R36). -/
def Phase.awaitsSettle : Phase → Bool
  | .winSettle | .baseSettle => true
  | .none | .idRd | .verRd | .select | .measRd | .winWr | .winRd | .baseWr => false

/-- The OP of the command a phase belongs to (R18, R36); none in phase NONE. -/
def Phase.op : Phase → Option (BitVec 4)
  | .none => Option.none
  | .idRd | .verRd => some 1
  | .select | .measRd | .winWr | .winSettle | .winRd => some 2
  | .baseWr | .baseSettle => some 3

/-- "Invariants that hold in every reachable state" (R36), bullet by bullet. -/
structure EngineInv (s : State) : Prop where
  busy_iff : s.fsm = .busy ↔ s.phase ≠ .none
  xfer_iff : s.xfer = true ↔ s.phase.awaitsAnswer = true
  settle_iff : s.settle = true ↔ s.phase.awaitsSettle = true
  not_both : ¬ (s.xfer = true ∧ s.settle = true)
  cur_op : ∀ op, s.phase.op = some op → s.curOp = op
  pending_zero : s.curOp ≠ 2 ∨ s.fsm ≠ .busy → s.pending = 0

/-- The request each phase waits for (R18, R76): what XREQ holds. -/
def expectedXReq (s : State) : Option XReq :=
  match s.phase with
  | .none | .select | .winSettle | .baseSettle => Option.none
  | .idRd => some ⟨.read, 0x00, 4⟩
  | .verRd => some ⟨.read, 0x0A, 2⟩
  | .measRd =>
    match s.meas with
    | .cum => some ⟨.read, 0x10, 4⟩
    | .win => some ⟨.read, 0x0C, 4⟩
    | .raw => some ⟨.read, 0x14, 4⟩
    | .time => some ⟨.read, 0x18, 2⟩
  | .winWr => some ⟨.write, 0x26, 1⟩
  | .winRd => some ⟨.read, 0x0C, 4⟩
  | .baseWr => some ⟨.write, 0x28, 2⟩

/-- The engine's invariants with what XREQ and MEAS hold in each phase (R18, R20, R24). -/
structure SequencerInv (s : State) : Prop where
  engine : EngineInv s
  xreq_eq : s.xreq = expectedXReq s
  meas_single : s.phase = .measRd → s.meas ≠ .win

/-- A run is quiescent (R125). -/
def quiescent (s : State) : Bool :=
  s.stable && s.cmd.isNone && !s.xfer && !s.settle

/-! ## The terms of one step -/

/-- The engine takes the next step, and the schedule after it is `rest`: the schedule names the
engine's move, or it names no move (R97; log entry 12). -/
def engineMoves (s : State) (rest : List Move) : Prop :=
  (s.sched = [] ∧ rest = []) ∨ ∃ pick, s.sched = .engine pick :: rest

/-- The request a kind starts with: T3, T4, T6 or T7 (R76, R106, R111). -/
def firstRequest (k : Kind) (hours : Byte) : TReq :=
  match k with
  | .cum => .read 0x10 4
  | .win => .write 0x26 [hours]
  | .raw => .read 0x14 4
  | .time => .read 0x18 2

/-- What the answer to a measurement's read of `width` bytes makes of the response buffer `old`: ERR
gives UNAVAIL_TRANSPORT, a wrong length UNAVAIL_SHORT, the right length VALID and the little-endian
count in DATA(k) (R112, R115). -/
def recordedAs (k : Kind) (width : Nat) (r : TRsp) (old new : Resp) : Prop :=
  (r = .err → new = { old with rw0 := setRw0Mst old.rw0 k .unavailTransport }) ∧
  (∀ bytes, r = .data bytes → bytes.length ≠ width →
    new = { old with rw0 := setRw0Mst old.rw0 k .unavailShort }) ∧
  (∀ b0 b1 b2 b3, width = 4 → r = .data [b0, b1, b2, b3] →
    new = setRespData { old with rw0 := setRw0Mst old.rw0 k .valid } k (le32 b0 b1 b2 b3)) ∧
  (∀ b0 b1, width = 2 → r = .data [b0, b1] →
    new = setRespData { old with rw0 := setRw0Mst old.rw0 k .valid } k ((le16 b0 b1).setWidth 32))

/-- Two selections name the same function and give the inputs its rule names the same values (R72,
R73). -/
def sameInputs (p p' : DecIn) : Prop :=
  p.func = p'.func ∧
  (p.func.toNat = 0 ∨ p.func.toNat = 2 ∨ p.func.toNat = 3 →
    p.b0 = p'.b0 ∧ p.b1 = p'.b1 ∧ p.b2 = p'.b2 ∧ p.b3 = p'.b3) ∧
  (p.func.toNat = 1 ∨ p.func.toNat = 4 → p.b0 = p'.b0 ∧ p.b1 = p'.b1) ∧
  (p.func.toNat = 5 → p.code = p'.code) ∧
  (p.func.toNat = 6 → p.hours = p'.hours)

/-- How often an event stands in a trace. -/
def occurrences (e : Event) (t : List Event) : Nat := t.countP (fun e' => decide (e' = e))

/-! ## The trace, newest event first -/

/-- The request issued and not yet answered, if any. A reset discards it (R143). -/
def outstanding : List Event → Option TReq
  | [] => none
  | .treq q :: _ => some q
  | .trsp _ :: _ => none
  | .reset :: _ => none
  | .cmd _ :: t => outstanding t
  | .settleStart :: t => outstanding t
  | .settleDone :: t => outstanding t
  | .resp _ :: t => outstanding t

/-- The command word accepted and not yet answered by a response, if any. A reset aborts it (R143). -/
def openCmd : List Event → Option Word
  | [] => none
  | .cmd w :: _ => some w
  | .resp _ :: _ => none
  | .reset :: _ => none
  | .treq _ :: t => openCmd t
  | .trsp _ :: t => openCmd t
  | .settleStart :: t => openCmd t
  | .settleDone :: t => openCmd t

/-- Where the settle after a write stands: none is due, `SettleStart` is due, or `SettleDone` is due
(R52). -/
inductive SettleWait where
  | idle | startDue | doneDue
  deriving DecidableEq, Repr

/-- Where the settle stands after a trace. -/
def settleWait : List Event → SettleWait
  | [] => .idle
  | .trsp _ :: t =>
    match outstanding t with
    | some (.write _ _) => .startDue
    | some (.read _ _) => .idle
    | none => .idle
  | .settleStart :: _ => .doneDue
  | .settleDone :: _ => .idle
  | .reset :: _ => .idle
  | .cmd _ :: t => settleWait t
  | .treq _ :: t => settleWait t
  | .resp _ :: t => settleWait t

/-- The events of the command in progress, without its `Cmd`. -/
def sinceCmd : List Event → List Event
  | [] => []
  | .cmd _ :: _ => []
  | .resp _ :: _ => []
  | .reset :: _ => []
  | .treq q :: t => .treq q :: sinceCmd t
  | .trsp r :: t => .trsp r :: sinceCmd t
  | .settleStart :: t => .settleStart :: sinceCmd t
  | .settleDone :: t => .settleDone :: sinceCmd t

/-- A write of RAIN_HOUR_WINDOW. -/
def isWindowWrite : Event → Bool
  | .treq (.write a _) => decide (a = 0x26)
  | _ => false

/-- How often the command in progress has written RAIN_HOUR_WINDOW. -/
def windowWrites (t : List Event) : Nat := (sinceCmd t).countP isWindowWrite

/-- The last four events are a window write, its `TRsp(OK)`, `SettleStart`, `SettleDone`. -/
def windowSettled : List Event → Bool
  | .settleDone :: .settleStart :: .trsp .ok :: .treq (.write a _) :: _ => decide (a = 0x26)
  | _ => false

/-- Every event of the trace, with the events before it, satisfies `ok`. -/
def everyEvent (ok : Event → List Event → Bool) : List Event → Bool
  | [] => true
  | e :: before => ok e before && everyEvent ok before

/-- The transport requests that belong to a command word (R76, R152 P4). -/
def belongs (w : Word) (q : TReq) : Bool :=
  match decodeCmd w with
  | .ok .init => decide (q = .read 0x00 4) || decide (q = .read 0x0A 2)
  | .ok (.poll cum win raw time hours) =>
    (cum && decide (q = .read 0x10 4))
      || (win && (decide (q = .write 0x26 [hours]) || decide (q = .read 0x0C 4)))
      || (raw && decide (q = .read 0x14 4))
      || (time && decide (q = .read 0x18 2))
  | .ok (.setBase code) =>
    decide (q = .write 0x28 [code.extractLsb' 0 8, code.extractLsb' 8 8])
  | _ => false

/-- P1 (one at a time): "between a `TReq` and its `TRsp`, no other `TReq` occurs"; a `TRsp` answers the
outstanding request, with an answer its kind admits (R122). -/
def okP1 (e : Event) (before : List Event) : Bool :=
  match e with
  | .treq _ => (outstanding before).isNone
  | .trsp r =>
    match outstanding before with
    | some q => r.fits q.toXReq
    | none => false
  | _ => true

/-- P2 (settle): after the `TRsp` of a write the next events are `SettleStart` and then `SettleDone`,
unless a reset cuts the settle off (R143); neither occurs anywhere else. -/
def okP2 (e : Event) (before : List Event) : Bool :=
  match settleWait before with
  | .startDue => decide (e = .settleStart)
  | .doneDue => decide (e = .settleDone) || decide (e = .reset)
  | .idle => decide (e ≠ .settleStart) && decide (e ≠ .settleDone)

/-- P3 (windowed pair), for an event inside a POLL with REQ_WIN = 1: the window write carries HOURS and
has occurred once when the POLL answers OK, as every accepted POLL does (R69), and not at all when
it is rejected (R100; log entry 17); TIME_RAINFALL is read exactly after a window write that
answered OK and its settle, with nothing between. -/
def okP3 (e : Event) (before : List Event) : Bool :=
  match openCmd before with
  | none => true
  | some w =>
    if decide (opField w = 2) && w.getLsbD 5 then
      (!windowSettled before || decide (e = .treq (.read 0x0C 4)))
        && (match e with
            | .treq (.write a bs) =>
              decide (a = 0x26) && decide (bs = [w.extractLsb' 8 8])
                && decide (windowWrites before = 0)
            | .treq (.read a _) => decide (a ≠ 0x0C) || windowSettled before
            | .resp r =>
              decide (windowWrites before = if rw0Status r.rw0 = Status.ok.bits then 1 else 0)
            | _ => true)
    else true

/-- P4 (exclusion): every `TReq` lies between a `Cmd(w)` and its `Resp` and belongs to `w`. -/
def okP4 (e : Event) (before : List Event) : Bool :=
  match e with
  | .treq q =>
    match openCmd before with
    | some w => belongs w q
    | none => false
  | _ => true

/-- P5 (one response): a `Cmd` comes only after the response of the one before it, and a `Resp` answers
the command in progress, whose OP it echoes (R68). -/
def okP5 (e : Event) (before : List Event) : Bool :=
  match e with
  | .cmd _ => (openCmd before).isNone
  | .resp r =>
    match openCmd before with
    | some w => decide (rw0OpEcho r.rw0 = opField w)
    | none => false
  | _ => true

/-- P6 (no traffic without a command). -/
def okP6 (e : Event) (before : List Event) : Bool :=
  match e with
  | .treq _ => (openCmd before).isSome
  | _ => true

/-- The six trace properties of R152. -/
structure TraceOk (t : List Event) : Prop where
  p1 : everyEvent okP1 t = true
  p2 : everyEvent okP2 t = true
  p3 : everyEvent okP3 t = true
  p4 : everyEvent okP4 t = true
  p5 : everyEvent okP5 t = true
  p6 : everyEvent okP6 t = true

/-! ## The link between the state and the trace -/

/-- What the engine's latches hold of the command word in progress (R19, R21, R22). -/
def latchesHold (w : Word) (s : State) : Prop :=
  s.curOp = opField w ∧
  match decodeCmd w with
  | .ok .init => True
  | .ok (.poll cum win raw time hours) =>
    s.hours = hours ∧ s.pending &&& ~~~requestBits cum win raw time = 0 ∧
      windowWrites s.trace = (if win && !isPending s.pending .win then 1 else 0) ∧
      (s.phase = .winWr ∨ s.phase = .winSettle ∨ s.phase = .winRd → win = true)
  | .ok (.setBase code) => s.code = code
  | _ => False

/-- The trace tells the same story as the engine's registers. -/
structure TraceLink (s : State) : Prop where
  outstanding_eq : (outstanding s.trace).map TReq.toXReq = s.xreq
  settle_eq : settleWait s.trace = if s.settle then .doneDue else .idle
  open_iff : (openCmd s.trace).isSome = decide (s.fsm = .busy)
  latches : ∀ w, openCmd s.trace = some w → latchesHold w s
  echo : s.fsm = .busy → rw0OpEcho s.resp.rw0 = s.curOp
  window_write : s.phase = .winWr → ∃ before, s.trace = .treq (.write 0x26 [s.hours]) :: before
  window_settle : s.phase = .winSettle → ∃ before,
    s.trace = .settleStart :: .trsp (if s.wrOk then .ok else .err)
      :: .treq (.write 0x26 [s.hours]) :: before
  not_settled : windowSettled s.trace = false

/-- The invariant of the whole machine: the engine's registers, the link, and P1 to P6. -/
structure MachineInv (s : State) : Prop where
  sequencer : SequencerInv s
  link : TraceLink s
  trace : TraceOk s.trace

/-! ## The closed loop: a Transport that answers every request -/

/-- What a Transport answers to each request. -/
abbrev Oracle := XReq → TRsp

/-- The Transport's answers are ones the contract admits (R47, R122). -/
def Oracle.keepsContract (env : Oracle) : Prop := ∀ q, (env q).fits q = true

/-- The move that is enabled in a busy engine (R97): the Transport's answer, the timer's signal, or the
engine's own step with SELECT's draw. `pick` gives the draw for each set of pending kinds, so every
order of the measurements is some `pick`. -/
def closedMove (env : Oracle) (pick : BitVec 4 → Nat) (s : State) : Move :=
  match s.xreq with
  | some q => .transport (env q)
  | none => if s.settle then .timer else .engine (some (pick s.pending))

/-- One step of the machine under that move, the schedule after it being empty. -/
def closedStep (env : Oracle) (pick : BitVec 4 → Nat) (s : State) : State :=
  match step (setSched [closedMove env pick s] s) with
  | .next s' => s'
  | _ => s

/-- `n` steps of the closed loop. -/
def closedRun (env : Oracle) (pick : BitVec 4 → Nat) : Nat → State → State
  | 0, s => s
  | n + 1, s => closedRun env pick n (closedStep env pick s)

/-- The engine steps the pending kinds still take: 2 for each of CUM, RAW, TIME, 4 for WIN (R153). -/
def pendingCost (pending : BitVec 4) : Nat :=
  (if isPending pending .cum then 2 else 0) + (if isPending pending .win then 4 else 0)
    + (if isPending pending .raw then 2 else 0) + (if isPending pending .time then 2 else 0)

/-- A bound on the engine steps until the response (R153). -/
def stepsLeft (s : State) : Nat :=
  match s.phase with
  | .none => 0
  | .idRd => 2
  | .verRd => 1
  | .select => 1 + pendingCost s.pending
  | .measRd => 2 + pendingCost s.pending
  | .winWr => 4 + pendingCost s.pending
  | .winSettle => 3 + pendingCost s.pending
  | .winRd => 2 + pendingCost s.pending
  | .baseWr => 2
  | .baseSettle => 1

/-! ## The response of a whole command -/

/-- The MST code (R70: 1 VALID, 2 UNAVAIL_TRANSPORT, 3 UNAVAIL_SHORT) and the data word a kind's read
gives (R112, R115). -/
def readResult (k : Kind) (r : TRsp) : BitVec 2 × Word :=
  match r with
  | .data bytes =>
    match decodeMeasurement k bytes with
    | some v => (1, v)
    | none => (3, 0)
  | .ok => (2, 0)
  | .err => (2, 0)

/-- The MST code and data word of a requested kind, from the answers to its own requests alone (R114,
R116). -/
def kindResult (env : Oracle) (k : Kind) : BitVec 2 × Word :=
  match k with
  | .cum => readResult .cum (env ⟨.read, 0x10, 4⟩)
  | .win =>
    if env ⟨.write, 0x26, 1⟩ = .ok then readResult .win (env ⟨.read, 0x0C, 4⟩) else (2, 0)
  | .raw => readResult .raw (env ⟨.read, 0x14, 4⟩)
  | .time => readResult .time (env ⟨.read, 0x18, 2⟩)

/-- The result of a kind that may not be requested: then MST is 0, NOT_REQUESTED (R70). -/
def requestedResult (env : Oracle) (requested : Bool) (k : Kind) : BitVec 2 × Word :=
  if requested then kindResult env k else (0, 0)

/-- The response of a POLL (R68, R69, R109, R116): STATUS = OK, OP_ECHO = 2, an MST and a data word for
each kind. -/
def pollResponse (env : Oracle) (cum win raw time : Bool) : Resp :=
  let c := requestedResult env cum .cum
  let w := requestedResult env win .win
  let r := requestedResult env raw .raw
  let t := requestedResult env time .time
  { rw0 := 0x20#32 ||| c.1.setWidth 32 <<< 10 ||| w.1.setWidth 32 <<< 12
      ||| r.1.setWidth 32 <<< 14 ||| t.1.setWidth 32 <<< 16
    rw1 := c.2, rw2 := w.2, rw3 := r.2, rw4 := t.2 }

/-- The firmware version an INIT reports (R105): the raw word of a two-byte answer. -/
def versionResult (r : TRsp) : Option Half :=
  match r with
  | .data [b0, b1] => some (le16 b0 b1)
  | _ => none

/-- The response of an INIT and the state it leaves (R104, R105, R127). -/
def initResponse (env : Oracle) (readVersion : Bool) : Resp × FsmState :=
  match env ⟨.read, 0x00, 4⟩ with
  | .data [b0, b1, b2, b3] =>
    let pid := productId b0 b1 b3
    let vid := vendorId b2 b3
    if vid = 0x3343 ∧ pid = 0x100C0 then
      match (if readVersion then versionResult (env ⟨.read, 0x0A, 2⟩) else none) with
      | some v =>
        ({ rw0 := 0x310, rw1 := v.setWidth 32, rw2 := 0x100C0, rw3 := 0x3343, rw4 := 0 }, .ready)
      | none => ({ rw0 := 0x210, rw1 := 0, rw2 := 0x100C0, rw3 := 0x3343, rw4 := 0 }, .ready)
    else
      ({ rw0 := 0x211, rw1 := 0, rw2 := pid.setWidth 32, rw3 := vid.setWidth 32, rw4 := 0 },
        .unusable)
  | .data _ => ({ rw0 := 0x13, rw1 := 0, rw2 := 0, rw3 := 0, rw4 := 0 }, .unusable)
  | _ => ({ rw0 := 0x12, rw1 := 0, rw2 := 0, rw3 := 0, rw4 := 0 }, .unusable)

/-- The response of a SET_BASE (R120): OK or TRANSPORT_ERROR. -/
def setBaseResponse (env : Oracle) : Resp :=
  { Resp.zero with rw0 := if env ⟨.write, 0x28, 2⟩ = .ok then 0x30 else 0x32 }

/-! ## The host's duties -/

/-- The host keeps its contract with an offered word (R27, R67, R100, R146): the word is not reserved,
and POLL and SET_BASE are offered only in READY. -/
def hostKeepsContract (w : Word) (s : State) : Bool :=
  match decodeCmd w with
  | .ok .init => true
  | .ok _ => decide (s.fsm = .ready)
  | .error _ => false

/-! ## The host adapter's floating values -/

/-- The number (-1)^neg * mant * 2^exp. -/
def dyadicRat (neg : Bool) (mant : Nat) (exp : Int) : Rat :=
  (if neg then -1 else 1) * (mant : Rat) * (2 : Rat) ^ exp

/-- `y` encodes the finite binary64 number nearest to `r`, ties to even (R93): no finite binary64 number
is nearer, and where another one is equally near, `y` is the one with the even significand. -/
def isNearestF64 (r : Rat) (y : BitVec 64) : Prop :=
  ∃ neg mant exp, f64Value y = .finite neg mant exp ∧
    ∀ x neg' mant' exp', f64Value x = .finite neg' mant' exp' →
      |dyadicRat neg mant exp - r| ≤ |dyadicRat neg' mant' exp' - r| ∧
      (|dyadicRat neg mant exp - r| = |dyadicRat neg' mant' exp' - r| →
        dyadicRat neg' mant' exp' = dyadicRat neg mant exp ∨ mant % 2 = 0)

/-! ## The timed refinement -/

/-- Events with the real time at which they occur; newest first. DESIGN CHOICE: times are whole numbers of
milliseconds, like `T_SETTLE`; the spec speaks of real time and gives it no resolution (R156; log entry
25). -/
abbrev TimedTrace := List (Nat × Event)

/-- The events without their times. -/
def TimedTrace.events (t : TimedTrace) : List Event := t.map Prod.snd

/-- The time of the latest answer of the Transport. -/
def lastAnswerTime : TimedTrace → Option Nat
  | [] => none
  | (t, .trsp _) :: _ => some t
  | _ :: rest => lastAnswerTime rest

/-- Real time does not run backwards. -/
def timesOrdered : TimedTrace → Bool
  | [] => true
  | [_] => true
  | (t, _) :: (u, e) :: rest => decide (u ≤ t) && timesOrdered ((u, e) :: rest)

/-- "the real time between the `TRsp` of a write and the matching `SettleDone` is at least `T_SETTLE`"
(R156, R136): the one constraint a timed run adds. -/
def settleDistanceOk (tSettle : Nat) : TimedTrace → Bool
  | [] => true
  | (t, .settleDone) :: rest =>
    (match lastAnswerTime rest with
      | some u => decide (u + tSettle ≤ t)
      | none => true)
      && settleDistanceOk tSettle rest
  | _ :: rest => settleDistanceOk tSettle rest

/-- A write's `TReq` without its `SettleDone`, which a reset would leave unsettled (R150). -/
def writeUnsettled (t : List Event) : Bool :=
  match settleWait t with
  | .startDue => true
  | .doneDue => true
  | .idle =>
    match outstanding t with
    | some (.write _ _) => true
    | _ => false

/-- The host lets `T_SETTLE` elapse after a reset that cut a write's settle off before it offers the
next command (R150); `due` is the time before which no command may be accepted. -/
def resetDue (tSettle : Nat) : TimedTrace → Nat
  | [] => 0
  | (t, .reset) :: rest =>
    if writeUnsettled (TimedTrace.events rest) then t + tSettle else resetDue tSettle rest
  | _ :: rest => resetDue tSettle rest

/-- The duty of R150 along a timed run. -/
def resetDutyKept (tSettle : Nat) : TimedTrace → Bool
  | [] => true
  | (t, .cmd _) :: rest => decide (resetDue tSettle rest ≤ t) && resetDutyKept tSettle rest
  | _ :: rest => resetDutyKept tSettle rest

end Sys2Proof.Machine
end

