-- ==== Sys2Proof/Certificates/Slice0/Obligations.lean ====
section
/-! DEFINITION. The statements for the provers: what the numbered rules of spec/ say an instruction,
an engine step or the whole machine does. -/

open Sys2Proof Sys2Proof.Machine

/-! ## Encodings -/

/-- Every instruction's encoding decodes to it again, with every operand at every value (R64 to R66,
R72, R73, R77). -/
def Obligations.DecodeEncodeRoundTrip : Prop :=
  ∀ i : Instr, decode (encode i) = .ok i

/-- A command word has one meaning: the word a decoded command encodes to is the word it was decoded
from, so no bit of a command word is dropped (R64 to R66, R79). -/
def Obligations.CommandWordsHaveOneMeaning : Prop :=
  ∀ (w : Word) (i : Instr), decode (.cmd w) = .ok i → encode i = .cmd w

/-- "each word is exactly one of INIT (0x00000001), POLL (`w[3:0]` = 0x2 and `w[31:16]` = 0),
SET_BASE (`w[3:0]` = 0x3 and `w[15:4]` = 0), or reserved (every other word)" (R79). -/
def Obligations.CommandDecoderClasses : Prop :=
  ∀ w : Word,
    (decode (.cmd w) = .ok .init ↔ w = 0x00000001) ∧
    ((∃ c wi r t h, decode (.cmd w) = .ok (.poll c wi r t h)) ↔
      w.extractLsb' 0 4 = 2 ∧ w.extractLsb' 16 16 = 0) ∧
    ((∃ c, decode (.cmd w) = .ok (.setBase c)) ↔
      w.extractLsb' 0 4 = 3 ∧ w.extractLsb' 4 12 = 0) ∧
    ((∃ e, decode (.cmd w) = .error e) ↔
      ¬ (w = 0x00000001 ∨ (w.extractLsb' 0 4 = 2 ∧ w.extractLsb' 16 16 = 0) ∨
        (w.extractLsb' 0 4 = 3 ∧ w.extractLsb' 4 12 = 0)))

/-- Words written out from the formats decode to what they stand for (R64 to R67, R73, R74; the table
of 95_test_vectors.md section 2.10). -/
def Obligations.SampleWordsDecode : Prop :=
  decodeTableWord 32 0x00000001 = some .init ∧
  decodeTableWord 32 0x000001F2 = some (.poll true true true true 0x01) ∧
  decodeTableWord 32 0x0000AB12 = some (.poll true false false false 0xAB) ∧
  decodeTableWord 32 0x000000C2 = some (.poll false false true true 0x00) ∧
  decodeTableWord 32 0x30390003 = some (.setBase 0x3039) ∧
  decodeTableWord 32 0x00000011 = none ∧ decodeTableWord 32 0x00010002 = none ∧
  decodeTableWord 32 0x30390013 = none ∧ decodeTableWord 32 0x00000000 = none ∧
  decodeTableWord 8 0 = some (.decIdentity 0 0 0 0) ∧
  decodeTableWord 8 1 = some (.decVersion 0 0) ∧
  decodeTableWord 8 2 = some (.decRainfall 0 0 0 0) ∧
  decodeTableWord 8 3 = some (.decRawcount 0 0 0 0) ∧
  decodeTableWord 8 4 = some (.decWorktime 0 0) ∧
  decodeTableWord 8 5 = some (.encBase 0) ∧
  decodeTableWord 8 6 = some (.encWindow 0) ∧ decodeTableWord 8 7 = none

/-- What the assembler's statements assemble to (R78): the bits of a POLL say which items stand in
its list, in any order, and HOURS is the hours of `win`; the pseudo-instructions' words, that of
`SETBASE.MM v` from `baseQuantize(v)` and none where that refuses (R95); a statement with an item
twice, hours above 255 or a code above 16 bits has no word. -/
def Obligations.AssembledWords : Prop :=
  (∀ items : List PollItem, (Asm.poll items).wf = true →
    ∃ w : Word, (assemble (.poll items)).map encode = some (.cmd w) ∧
      w.extractLsb' 0 4 = 2 ∧ w.extractLsb' 16 16 = 0 ∧
      (w.getLsbD 4 = true ↔ PollItem.cum ∈ items) ∧
      (w.getLsbD 5 = true ↔ ∃ h, PollItem.win h ∈ items) ∧
      (w.getLsbD 6 = true ↔ PollItem.raw ∈ items) ∧
      (w.getLsbD 7 = true ↔ PollItem.time ∈ items) ∧
      (∀ h, PollItem.win h ∈ items → (w.extractLsb' 8 8).toNat = h) ∧
      ((∀ h, PollItem.win h ∉ items) → w.extractLsb' 8 8 = 0)) ∧
  (∀ h : Byte, (assemble (.pollAll h.toNat)).map encode
      = some (.cmd (0x000000F2#32 ||| h.setWidth 32 <<< 8))) ∧
  (∀ h : Byte, (assemble (.pollWin h.toNat)).map encode
      = some (.cmd (0x00000022#32 ||| h.setWidth 32 <<< 8))) ∧
  (∀ c : Half, (assemble (.setBase c.toNat)).map encode
      = some (.cmd (0x3#32 ||| c.setWidth 32 <<< 16))) ∧
  (assemble .init).map encode = some (.cmd 0x00000001) ∧
  (∀ v : BitVec 64, (assemble (.setBaseMm v)).map encode
      = (baseQuantize v).map (fun c => .cmd (0x3#32 ||| c.setWidth 32 <<< 16))) ∧
  (∀ a : Asm, a.wf = false → assemble a = none)

/-- Writing one field of RW0 gives the field its value and leaves every other bit of the word (R68):
STATUS [3:0], FW_VALID [8], ID_VALID [9], MST(k) [11+2k:10+2k]. The codes written are the numbers of
R69 and R70. -/
def Obligations.ResponseHeaderFieldWrites : Prop :=
  (Status.bits .ok = 0 ∧ Status.bits .identityMismatch = 1 ∧ Status.bits .transportError = 2 ∧
    Status.bits .shortRead = 3 ∧ Status.bits .notReady = 4 ∧ Status.bits .badCommand = 5) ∧
  (Mst.bits .notRequested = 0 ∧ Mst.bits .valid = 1 ∧ Mst.bits .unavailTransport = 2 ∧
    Mst.bits .unavailShort = 3) ∧
  (∀ (w : Word) (st : Status), (setRw0Status w st).extractLsb' 0 4 = st.bits ∧
    ∀ j, 4 ≤ j → (setRw0Status w st).getLsbD j = w.getLsbD j) ∧
  (∀ (w : Word) (j : Nat), (setRw0FwValid w).getLsbD j = (decide (j = 8) || w.getLsbD j)) ∧
  (∀ (w : Word) (j : Nat), (setRw0IdValid w).getLsbD j = (decide (j = 9) || w.getLsbD j)) ∧
  (∀ (w : Word) (k : Kind) (m : Mst),
    (setRw0Mst w k m).extractLsb' (10 + 2 * k.index) 2 = m.bits ∧
    ∀ j, j < 10 + 2 * k.index ∨ 12 + 2 * k.index ≤ j →
      (setRw0Mst w k m).getLsbD j = w.getLsbD j)

/-! ## Reset -/

/-- "Reset values of every piece of RDPE state" (R34). -/
def Obligations.ResetValues : Prop :=
  State.reset.fsm.bits = 0 ∧ State.reset.fsm = .uninit ∧ State.reset.phase.bits = 0 ∧
  State.reset.phase = .none ∧ State.reset.curOp = 0 ∧ State.reset.meas.bits = 0 ∧
  State.reset.pending = 0 ∧ State.reset.hours = 0 ∧ State.reset.code = 0 ∧
  State.reset.wrOk = false ∧ State.reset.xfer = false ∧ State.reset.xreq = none ∧
  State.reset.settle = false ∧
  State.reset.resp = { rw0 := 0, rw1 := 0, rw2 := 0, rw3 := 0, rw4 := 0 } ∧
  State.reset.hostErr = false

/-- The reset input, in whatever state the machine is, sets every register to its reset value and emits
no event of the spec's trace, so no `Resp` for a command it aborts and no request to the device; an
answer or a signal that belongs to a request or settle from before it is not taken afterwards
(R143). The configuration stays (R145). The model's own clauses: that no word is offered afterwards is
DEDUCED from R144 (log entry 9), that the schedule goes on and the trace may gain the mark `reset` is
the model's choice (log entry 9), and that an answer or signal that is not taken is a move without
effect is the model's form (log entry 2). -/
def Obligations.ResetInputFromAnyState : Prop :=
  ∀ (s : State) (rest : List Move), s.sched = .reset :: rest →
    ∃ s', step s = .next s' ∧
      s'.fsm = .uninit ∧ s'.phase = .none ∧ s'.curOp = 0 ∧ s'.meas.bits = 0 ∧ s'.pending = 0 ∧
      s'.hours = 0 ∧ s'.code = 0 ∧ s'.wrOk = false ∧ s'.xreq = none ∧ s'.settle = false ∧
      s'.resp = { rw0 := 0, rw1 := 0, rw2 := 0, rw3 := 0, rw4 := 0 } ∧ s'.hostErr = false ∧
      s'.cmd = none ∧ s'.cfg = s.cfg ∧ s'.sched = rest ∧
      (∀ e, e ≠ .reset → occurrences e s'.trace = occurrences e s.trace) ∧
      (∀ r l, step { s' with sched := .transport r :: l } = .next { s' with sched := l }) ∧
      (∀ l, step { s' with sched := .timer :: l } = .next { s' with sched := l })

/-- A stable engine with no word offered does nothing, in every stable state and so after reset: no
automatic INIT, no transport request, no event; nothing changes but the schedule (R97, R144; that a
wait is a step that changes nothing is the model's form, log entry 12). -/
def Obligations.StableEngineWithNothingOfferedStaysPut : Prop :=
  ∀ (s : State) (rest : List Move), engineMoves s rest → s.fsm ≠ .busy → s.cmd = none →
    step s = .next { s with sched := rest }

/-! ## The step and the channels -/

/-- When the engine moves in a stable state, the step runs the instruction that the offered word
decodes to; when the decoder's ports are given a selection, the step runs the function it selects
(R72, R97, R98). What the step adds around `exec` is that the move leaves the schedule. -/
def Obligations.StepRunsDecodedInstruction : Prop :=
  (∀ (s : State) (w : Word) (i : Instr) (rest : List Move), engineMoves s rest → s.fsm ≠ .busy →
    s.cmd = some w → decode (.cmd w) = .ok i → step s = exec i { s with sched := rest }) ∧
  (∀ (s : State) (p : DecIn) (i : Instr) (rest : List Move), s.sched = .decoder p :: rest →
    decode (.dec p) = .ok i → step s = exec i { s with sched := rest })

/-- While FSM_STATE = BUSY the offered command stays on the channel, whatever step is taken, unless
the reset input is pulsed, and no `Cmd` is emitted; the three commands change nothing (R98, R55; the
form in terms of `exec` is the model's, log entry 20). -/
def Obligations.OfferedCommandIsHeld : Prop :=
  (∀ (s s' : State) (w : Word), s.fsm = .busy → s.cmd = some w → s.sched.head? ≠ some .reset →
    step s = .next s' →
    s'.cmd = some w ∧ ∀ v, occurrences (.cmd v) s'.trace = occurrences (.cmd v) s.trace) ∧
  (∀ (s : State) (w : Word) (i : Instr), s.fsm = .busy → decode (.cmd w) = .ok i →
    exec i s = .next s)

/-- A waiting engine takes no step of its own, whatever is offered: nothing changes but the schedule
(R97, R121). -/
def Obligations.WaitingEngineStaysPut : Prop :=
  ∀ (s : State) (rest : List Move), engineMoves s rest → s.fsm = .busy → s.phase ≠ .select →
    step s = .next { s with sched := rest }

/-- The Transport answers only the outstanding request, a READ only with DATA or ERR and a WRITE only
with OK or ERR, and `SettleDone` is enabled only when SETTLE = 1 (R122): any other answer or signal
changes nothing (that it is a move without effect is the model's form, log entry 2). -/
def Obligations.UnsolicitedAnswersDoNothing : Prop :=
  (∀ (s : State) (r : TRsp) (rest : List Move), s.sched = .transport r :: rest →
    (∀ q, s.xreq = some q → r.fits q = false) → step s = .next { s with sched := rest }) ∧
  (∀ (s : State) (rest : List Move), s.sched = .timer :: rest → s.settle = false →
    step s = .next { s with sched := rest })

/-! ## The three commands -/

/-- INIT acceptance (R103), in every stable state, and its frame: nothing else changes. -/
def Obligations.InitIsAccepted : Prop :=
  ∀ s : State, s.fsm ≠ .busy →
    exec .init s = .next { s with
      cmd := none
      resp := { rw0 := 0x10, rw1 := 0, rw2 := 0, rw3 := 0, rw4 := 0 }
      curOp := 1
      fsm := .busy
      phase := .idRd
      xreq := some { kind := .read, addr := 0x00, width := 4 }
      trace := .treq (.read 0x00 4) :: .cmd 0x00000001 :: s.trace }

/-- POLL acceptance (R110), in READY, and its frame: PENDING takes w[7:4], which is bit k for kind k,
HOURS takes w[15:8], and nothing else changes. -/
def Obligations.PollIsAccepted : Prop :=
  ∀ (s : State) (c wi r t : Bool) (h : Byte) (w : Word), s.fsm = .ready →
    encode (.poll c wi r t h) = .cmd w →
    w.getLsbD 4 = c ∧ w.getLsbD 5 = wi ∧ w.getLsbD 6 = r ∧ w.getLsbD 7 = t ∧
    w.extractLsb' 8 8 = h ∧
    exec (.poll c wi r t h) s = .next { s with
      cmd := none
      resp := { rw0 := 0x20, rw1 := 0, rw2 := 0, rw3 := 0, rw4 := 0 }
      curOp := 2
      pending := w.extractLsb' 4 4
      hours := w.extractLsb' 8 8
      fsm := .busy
      phase := .select
      trace := .cmd w :: s.trace }

/-- SET_BASE acceptance (R118), in READY, and its frame: CODE takes w[31:16], the write carries CODE's
low byte first, and nothing else changes. -/
def Obligations.SetBaseIsAccepted : Prop :=
  ∀ (s : State) (c : Half) (w : Word), s.fsm = .ready → encode (.setBase c) = .cmd w →
    w.extractLsb' 16 16 = c ∧
    exec (.setBase c) s = .next { s with
      cmd := none
      resp := { rw0 := 0x30, rw1 := 0, rw2 := 0, rw3 := 0, rw4 := 0 }
      curOp := 3
      code := w.extractLsb' 16 16
      fsm := .busy
      phase := .baseWr
      xreq := some { kind := .write, addr := 0x28, width := 2 }
      trace := .treq (.write 0x28 [c.extractLsb' 0 8, c.extractLsb' 8 8]) :: .cmd w :: s.trace }

/-- A reserved word is rejected BAD_COMMAND in any stable state, before every other check: one
response, HOSTERR set, and nothing else changes (R99). -/
def Obligations.ReservedWordIsRejected : Prop :=
  ∀ (s : State) (w : Word) (e : DecodeError) (rest : List Move), engineMoves s rest →
    s.fsm ≠ .busy → s.cmd = some w → decode (.cmd w) = .error e →
    ∃ rw0, rw0 = 5#32 ||| (w.extractLsb' 0 4).setWidth 32 <<< 4 ∧
      step s = .next { s with
        sched := rest
        cmd := none
        hostErr := true
        trace := .resp { rw0 := rw0, rw1 := 0, rw2 := 0, rw3 := 0, rw4 := 0 }
          :: .cmd w :: s.trace }

/-- POLL and SET_BASE in UNINIT and UNUSABLE are rejected NOT_READY: one response, HOSTERR set, no
transport request, and nothing else changes (R100). -/
def Obligations.NotReadyIsRejected : Prop :=
  ∀ (s : State) (i : Instr) (w : Word), s.fsm = .uninit ∨ s.fsm = .unusable →
    encode i = .cmd w → i ≠ .init →
    ∃ rw0, rw0 = 4#32 ||| (w.extractLsb' 0 4).setWidth 32 <<< 4 ∧
      exec i s = .next { s with
        cmd := none
        hostErr := true
        trace := .resp { rw0 := rw0, rw1 := 0, rw2 := 0, rw3 := 0, rw4 := 0 }
          :: .cmd w :: s.trace }

/-! ## The engine's steps -/

/-- The ID_RD step (R104), branch by branch, with its frame. -/
def Obligations.IdentityReadStep : Prop :=
  ∀ (s : State) (r : TRsp) (rest : List Move), s.sched = .transport r :: rest →
    s.phase = .idRd → s.xreq = some { kind := .read, addr := 0x00, width := 4 } →
    (r = .err → ∃ ρ, ρ = { s.resp with rw0 := setRw0Status s.resp.rw0 .transportError } ∧
      step s = .next { s with
        sched := rest
        xreq := none
        fsm := .unusable
        phase := .none
        pending := 0
        resp := ρ
        trace := .resp ρ :: .trsp r :: s.trace }) ∧
    (∀ bytes, r = .data bytes → bytes.length ≠ 4 →
      ∃ ρ, ρ = { s.resp with rw0 := setRw0Status s.resp.rw0 .shortRead } ∧
      step s = .next { s with
        sched := rest
        xreq := none
        fsm := .unusable
        phase := .none
        pending := 0
        resp := ρ
        trace := .resp ρ :: .trsp r :: s.trace }) ∧
    (∀ b0 b1 b2 b3 pid vid, r = .data [b0, b1, b2, b3] → pid = productId b0 b1 b3 →
      vid = vendorId b2 b3 →
      (¬ (pid = 0x100C0 ∧ vid = 0x3343) → ∃ ρ,
        ρ = { s.resp with
          rw0 := setRw0Status (setRw0IdValid s.resp.rw0) .identityMismatch
          rw2 := pid.setWidth 32
          rw3 := vid.setWidth 32 } ∧
        step s = .next { s with
          sched := rest
          xreq := none
          fsm := .unusable
          phase := .none
          pending := 0
          resp := ρ
          trace := .resp ρ :: .trsp r :: s.trace }) ∧
      (pid = 0x100C0 ∧ vid = 0x3343 → s.cfg.readVersionAtInit = true → ∃ ρ,
        ρ = { s.resp with
          rw0 := setRw0IdValid s.resp.rw0
          rw2 := 0x100C0
          rw3 := 0x3343 } ∧
        step s = .next { s with
          sched := rest
          phase := .verRd
          resp := ρ
          xreq := some { kind := .read, addr := 0x0A, width := 2 }
          trace := .treq (.read 0x0A 2) :: .trsp r :: s.trace }) ∧
      (pid = 0x100C0 ∧ vid = 0x3343 → s.cfg.readVersionAtInit = false → ∃ ρ,
        ρ = { s.resp with
          rw0 := setRw0Status (setRw0IdValid s.resp.rw0) .ok
          rw2 := 0x100C0
          rw3 := 0x3343 } ∧
        step s = .next { s with
          sched := rest
          xreq := none
          fsm := .ready
          phase := .none
          pending := 0
          resp := ρ
          trace := .resp ρ :: .trsp r :: s.trace }))

/-- The VER_RD step (R105): the version when two bytes came, nothing otherwise, and READY in every
case, with its frame. -/
def Obligations.VersionReadStep : Prop :=
  ∀ (s : State) (r : TRsp) (rest : List Move), s.sched = .transport r :: rest →
    s.phase = .verRd → s.xreq = some { kind := .read, addr := 0x0A, width := 2 } → r ≠ .ok →
    ∃ ρ,
      (∀ b0 b1, r = .data [b0, b1] → ρ = { s.resp with
        rw0 := setRw0Status (setRw0FwValid s.resp.rw0) .ok
        rw1 := (le16 b0 b1).setWidth 32 }) ∧
      ((r = .err ∨ ∃ bytes, r = .data bytes ∧ bytes.length ≠ 2) →
        ρ = { s.resp with rw0 := setRw0Status s.resp.rw0 .ok }) ∧
      step s = .next { s with
        sched := rest
        xreq := none
        fsm := .ready
        phase := .none
        pending := 0
        resp := ρ
        trace := .resp ρ :: .trsp r :: s.trace }

/-- The SELECT step (R111), with its frame: with nothing pending it ends the poll cycle; otherwise it
performs one pending kind, which leaves PENDING and whose first request is issued; and every pending
kind can be the one drawn ("Order is unspecified"). -/
def Obligations.SelectStep : Prop :=
  (∀ (s : State) (rest : List Move), engineMoves s rest → s.fsm = .busy → s.phase = .select →
    s.pending = 0 → ∃ ρ, ρ = { s.resp with rw0 := setRw0Status s.resp.rw0 .ok } ∧
      step s = .next { s with
        sched := rest
        fsm := .ready
        phase := .none
        resp := ρ
        trace := .resp ρ :: s.trace }) ∧
  (∀ (s : State) (rest : List Move), engineMoves s rest → s.fsm = .busy → s.phase = .select →
    s.pending ≠ 0 →
    ∃ (k : Kind) (s' : State), s.pending.getLsbD k.index = true ∧ step s = .next s' ∧
      (∀ j, s'.pending.getLsbD j = (s.pending.getLsbD j && decide (j ≠ k.index))) ∧
      s'.phase = (if k = .win then .winWr else .measRd) ∧
      s'.meas = (if k = .win then s.meas else k) ∧
      s'.xreq = some (firstRequest k s.hours).toXReq ∧
      s'.trace = .treq (firstRequest k s.hours) :: s.trace ∧ s'.sched = rest ∧
      { s' with
        sched := s.sched
        pending := s.pending
        phase := s.phase
        meas := s.meas
        xreq := s.xreq
        trace := s.trace
        draws := s.draws } = s) ∧
  (∀ (s : State) (k : Kind) (rest : List Move), s.fsm = .busy → s.phase = .select →
    s.pending.getLsbD k.index = true →
    ∃ (i : Nat) (s' : State), step { s with sched := .engine (some i) :: rest } = .next s' ∧
      s'.trace = .treq (firstRequest k s.hours) :: s.trace)

/-- The MEAS_RD step of CUM, RAW and TIME (R112), with its frame. -/
def Obligations.MeasurementReadStep : Prop :=
  ∀ (s : State) (r : TRsp) (rest : List Move) (q : XReq), s.sched = .transport r :: rest →
    s.phase = .measRd → s.meas ≠ .win → s.xreq = some q → q.kind = .read → r.fits q = true →
    ∃ ρ, recordedAs s.meas (if s.meas = .time then 2 else 4) r s.resp ρ ∧
      step s = .next { s with
        sched := rest
        xreq := none
        phase := .select
        resp := ρ
        trace := .trsp r :: s.trace }

/-- The WIN_WR and BASE_WR steps (R113, R119): WR_OK records the answer and the settle is armed
whether the write succeeded or not, with their frame. -/
def Obligations.WriteAnswerSteps : Prop :=
  ∀ (s : State) (r : TRsp) (rest : List Move) (q : XReq), s.sched = .transport r :: rest →
    s.xreq = some q → q.kind = .write → r = .ok ∨ r = .err →
    (s.phase = .winWr → step s = .next { s with
      sched := rest
      xreq := none
      wrOk := decide (r = .ok)
      settle := true
      phase := .winSettle
      trace := .settleStart :: .trsp r :: s.trace }) ∧
    (s.phase = .baseWr → step s = .next { s with
      sched := rest
      xreq := none
      wrOk := decide (r = .ok)
      settle := true
      phase := .baseSettle
      trace := .settleStart :: .trsp r :: s.trace })

/-- The WIN_SETTLE step (R114): TIME_RAINFALL is read only after a window write that answered OK, with
its frame. -/
def Obligations.WindowSettleStep : Prop :=
  ∀ (s : State) (rest : List Move), s.sched = .timer :: rest → s.phase = .winSettle →
    s.settle = true →
    (s.wrOk = true → step s = .next { s with
      sched := rest
      settle := false
      phase := .winRd
      xreq := some { kind := .read, addr := 0x0C, width := 4 }
      trace := .treq (.read 0x0C 4) :: .settleDone :: s.trace }) ∧
    (s.wrOk = false → step s = .next { s with
      sched := rest
      settle := false
      phase := .select
      resp := { s.resp with rw0 := setRw0Mst s.resp.rw0 .win .unavailTransport }
      trace := .settleDone :: s.trace })

/-- The WIN_RD step (R115), with its frame. -/
def Obligations.WindowReadStep : Prop :=
  ∀ (s : State) (r : TRsp) (rest : List Move) (q : XReq), s.sched = .transport r :: rest →
    s.phase = .winRd → s.xreq = some q → q.kind = .read → r.fits q = true →
    ∃ ρ, recordedAs .win 4 r s.resp ρ ∧
      step s = .next { s with
        sched := rest
        xreq := none
        phase := .select
        resp := ρ
        trace := .trsp r :: s.trace }

/-- The BASE_SETTLE step (R120): OK or TRANSPORT_ERROR, and READY in both cases, with its frame. -/
def Obligations.BaseSettleStep : Prop :=
  ∀ (s : State) (rest : List Move), s.sched = .timer :: rest → s.phase = .baseSettle →
    s.settle = true →
    ∃ ρ,
      ρ = { s.resp with
        rw0 := setRw0Status s.resp.rw0 (if s.wrOk then .ok else .transportError) } ∧
      step s = .next { s with
        sched := rest
        settle := false
        fsm := .ready
        phase := .none
        pending := 0
        resp := ρ
        trace := .resp ρ :: .settleDone :: s.trace }

/-! ## The decoder functions -/

/-- DEC_IDENTITY (R84): the fields by the source's formula, which equal the fields of the
little-endian word and never exceed 18 and 14 bits; OUT_MATCH is the exact comparison; and its
frame. -/
def Obligations.IdentityIsDecoded : Prop :=
  ∀ (b0 b1 b2 b3 : Byte) (s : State), ∃ (o : DecOut),
    exec (.decIdentity b0 b1 b2 b3) s = .next { s with decOut := o } ∧
    o.f0 = b0.setWidth 20 ||| b1.setWidth 20 <<< 8 ||| (b3 &&& 0xC0).setWidth 20 <<< 10 ∧
    o.f1 = b2.setWidth 16 ||| (b3 &&& 0x3F).setWidth 16 <<< 8 ∧
    o.word.toNat = b0.toNat + 2 ^ 8 * b1.toNat + 2 ^ 16 * b2.toNat + 2 ^ 24 * b3.toNat ∧
    o.isMatch = decide (o.f1 = 0x3343 ∧ o.f0 = 0x100C0) ∧
    o.f0 = (o.word.extractLsb' 0 16).setWidth 20 ||| (o.word.extractLsb' 30 2).setWidth 20 <<< 16 ∧
    o.f1 = (o.word.extractLsb' 16 14).setWidth 16 ∧
    o.f0.toNat ≤ 0x3FFFF ∧ o.f1.toNat ≤ 0x3FFF

/-- Identity validation (R85): the comparison is exact, of every bit of both containers, and "The only
input bytes that match are {0xC0, 0x00, 0x43, 0x73}". -/
def Obligations.OnlyOneIdentityMatches : Prop :=
  (∀ (p : BitVec 20) (v : Half), idCheck p v = true ↔ v = 0x3343 ∧ p = 0x100C0) ∧
  (∀ (b0 b1 b2 b3 : Byte) (s s' : State), exec (.decIdentity b0 b1 b2 b3) s = .next s' →
    (s'.decOut.isMatch = true ↔ b0 = 0xC0 ∧ b1 = 0x00 ∧ b2 = 0x43 ∧ b3 = 0x73) ∧
    (s'.decOut.isMatch = true ↔ s'.decOut.word = 0x734300C0))

/-- The map from the 32 bits of the word to (product_id[17:0], vendor_id[13:0]) is a bijection, each
bit of the word used once, and an input that differs from the accepted one in one bit decodes to an
identity that differs from the expected one in exactly one bit and fails IDCHECK (R86). -/
def Obligations.IdentityMapIsBijective : Prop :=
  (∀ b0 b1 b2 b3 c0 c1 c2 c3 : Byte,
    productId b0 b1 b3 = productId c0 c1 c3 → vendorId b2 b3 = vendorId c2 c3 →
    b0 = c0 ∧ b1 = c1 ∧ b2 = c2 ∧ b3 = c3) ∧
  (∀ (p : BitVec 18) (v : BitVec 14), ∃ b0 b1 b2 b3 : Byte,
    productId b0 b1 b3 = p.setWidth 20 ∧ vendorId b2 b3 = v.setWidth 16) ∧
  (∀ b0 b1 b2 b3 : Byte,
    (∀ j, j < 16 → (productId b0 b1 b3).getLsbD j = (le32 b0 b1 b2 b3).getLsbD j) ∧
    (∀ j, j < 2 → (productId b0 b1 b3).getLsbD (16 + j) = (le32 b0 b1 b2 b3).getLsbD (30 + j)) ∧
    (∀ j, j < 14 → (vendorId b2 b3).getLsbD j = (le32 b0 b1 b2 b3).getLsbD (16 + j))) ∧
  (∀ (b0 b1 b2 b3 : Byte) (n : Nat), n < 32 → le32 b0 b1 b2 b3 = 0x734300C0 ^^^ (1#32 <<< n) →
    (((∃ j, j < 18 ∧ productId b0 b1 b3 = 0x100C0 ^^^ (1#20 <<< j)) ∧ vendorId b2 b3 = 0x3343) ∨
    (productId b0 b1 b3 = 0x100C0 ∧ ∃ j, j < 14 ∧ vendorId b2 b3 = 0x3343 ^^^ (1#16 <<< j))) ∧
    idCheck (productId b0 b1 b3) (vendorId b2 b3) = false)

/-- DEC_VERSION (R87): the raw word and its nibbles, each from its own byte, and its frame. That OUT_WORD
is the 16-bit word zero-extended to 32 bits is DEDUCED, and that OUT_F0 and OUT_F1 are 20 and 16 bits
wide and hold their 4-bit fields zero-extended is the model's choice (log entry 8; R72 says "widths by
function"). -/
def Obligations.VersionIsDecoded : Prop :=
  ∀ (b0 b1 : Byte) (s : State), ∃ (o : DecOut),
    exec (.decVersion b0 b1) s = .next { s with decOut := o } ∧
    o.word.toNat = b0.toNat + 2 ^ 8 * b1.toNat ∧
    o.f0 = (o.word.extractLsb' 12 4).setWidth 20 ∧ o.f1 = (o.word.extractLsb' 8 4).setWidth 16 ∧
    o.f2 = o.word.extractLsb' 4 4 ∧ o.f3 = o.word.extractLsb' 0 4 ∧
    o.f0 = (b1.extractLsb' 4 4).setWidth 20 ∧ o.f1 = (b1.extractLsb' 0 4).setWidth 16 ∧
    o.f2 = b0.extractLsb' 4 4 ∧ o.f3 = b0.extractLsb' 0 4

/-- DEC_RAINFALL (R89): the unsigned 32-bit count, its meaning in millimetres as an exact rational,
and its frame. -/
def Obligations.RainfallIsDecoded : Prop :=
  ∀ (b0 b1 b2 b3 : Byte) (s : State), ∃ (o : DecOut),
    exec (.decRainfall b0 b1 b2 b3) s = .next { s with decOut := o } ∧
    o.word.toNat = b0.toNat + 2 ^ 8 * b1.toNat + 2 ^ 16 * b2.toNat + 2 ^ 24 * b3.toNat ∧
    rainfallMm o.word = (o.word.toNat : Rat) / 10000

/-- DEC_RAWCOUNT (R90): the unscaled count, and its frame. -/
def Obligations.RawCountIsDecoded : Prop :=
  ∀ (b0 b1 b2 b3 : Byte) (s : State), ∃ (o : DecOut),
    exec (.decRawcount b0 b1 b2 b3) s = .next { s with decOut := o } ∧
    o.word.toNat = b0.toNat + 2 ^ 8 * b1.toNat + 2 ^ 16 * b2.toNat + 2 ^ 24 * b3.toNat

/-- DEC_WORKTIME (R91): the minutes, zero-extended, their meaning in hours as an exact rational, and
its frame. -/
def Obligations.WorkTimeIsDecoded : Prop :=
  ∀ (b0 b1 : Byte) (s : State), ∃ (o : DecOut),
    exec (.decWorktime b0 b1) s = .next { s with decOut := o } ∧
    o.word.toNat = b0.toNat + 2 ^ 8 * b1.toNat ∧
    workHours o.word = (o.word.toNat : Rat) / 60

/-- ENC_BASE (R94): CODE's low byte, then its high byte; read back as the low half of a count they
give CODE; and its frame. -/
def Obligations.BaseIsEncoded : Prop :=
  ∀ (c : Half) (s : State), ∃ (o : DecOut),
    exec (.encBase c) s = .next { s with decOut := o } ∧
    o.byte0 = c.extractLsb' 0 8 ∧ o.byte1 = c.extractLsb' 8 8 ∧ o.nbytes = 2 ∧
    le32 o.byte0 o.byte1 0 0 = c.setWidth 32

/-- ENC_WINDOW (R96): the one byte HOURS, for every value, and its frame. -/
def Obligations.WindowIsEncoded : Prop :=
  ∀ (h : Byte) (s : State), ∃ (o : DecOut),
    exec (.encWindow h) s = .next { s with decOut := o } ∧ o.byte0 = h ∧ o.nbytes = 1

/-- "A decoder given FUNC = 7 drives every output to 0" (R74), and nothing else changes. -/
def Obligations.ReservedFunctionDrivesZero : Prop :=
  ∀ (s : State) (p : DecIn) (rest : List Move), s.sched = .decoder p :: rest → p.func = 7 →
    ∃ (o : DecOut), step s = .next { s with sched := rest, decOut := o } ∧
      o.word = 0 ∧ o.f0 = 0 ∧ o.f1 = 0 ∧ o.f2 = 0 ∧ o.f3 = 0 ∧ o.isMatch = false ∧
      o.byte0 = 0 ∧ o.byte1 = 0 ∧ o.nbytes = 0

/-- "The decoder has no state" (R72): a selection changes nothing of the machine but the outputs, and
two selections of one function with the same values on the inputs its rule names give the same
outputs, in whatever states the machine is. -/
def Obligations.DecoderIsCombinational : Prop :=
  ∀ (p p' : DecIn), sameInputs p p' → ∃ o : DecOut,
    (∀ (s : State) (rest : List Move), s.sched = .decoder p :: rest →
      step s = .next { s with sched := rest, decOut := o }) ∧
    (∀ (s : State) (rest : List Move), s.sched = .decoder p' :: rest →
      step s = .next { s with sched := rest, decOut := o })

/-! ## Whole-machine rules -/

/-- "There is no `raise`: the RDPE never traps" (R10, R126): every step of every state answers a next
state. It keeps the configuration (R37, R145), takes no event of the trace back and adds at most
two (R12; the steps of R99 to R120). -/
def Obligations.EveryStepAnswersNext : Prop :=
  ∀ s : State, ∃ s', step s = .next s' ∧ s'.cfg = s.cfg ∧
    ∃ es, s'.trace = es ++ s.trace ∧ es.length ≤ 2

/-- HOSTERR (R27): once set only a reset clears it, and it is set exactly by the step that rejects a
word with which the host breaks its contract. -/
def Obligations.HostErrorIsSticky : Prop :=
  ∀ s s' : State, step s = .next s' → s.sched.head? ≠ some .reset →
    (s'.hostErr = true ↔
      (s.hostErr = true ∨
        ∃ (w : Word) (st : Status), s.cmd = some w ∧
          s'.trace = .resp { Resp.zero with rw0 := rw0Rejected st (opField w) }
            :: .cmd w :: s.trace ∧
          ((st = .badCommand ∧ s.fsm ≠ .busy ∧ ∃ e, decode (.cmd w) = .error e) ∨
            (st = .notReady ∧ (s.fsm = .uninit ∨ s.fsm = .unusable) ∧
              ∃ i, decode (.cmd w) = .ok i ∧ i ≠ .init))))

/-- A host that keeps its contract with every word it offers never sets HOSTERR (R27, R100, R146). -/
def Obligations.ContractKeepsHostErrorClear : Prop :=
  ∀ s s' : State, step s = .next s' → s.hostErr = false →
    (∀ w, s.cmd = some w → s.fsm ≠ .busy → hostKeepsContract w s = true) → s'.hostErr = false

/-- The operating states (R135, R140). UNINIT is entered only by reset. UNUSABLE is entered only by a
failed INIT: in ID_RD, on an answer other than the four bytes of the expected identity (R85). READY is
entered by a successful INIT: in ID_RD on those bytes, with no version read configured, or in VER_RD,
which is reached from ID_RD only on those bytes; or it is come back to at the end of a POLL or
SET_BASE, which start only in READY, CUR_OP staying while BUSY. UNUSABLE is left only by an INIT or a
reset. -/
def Obligations.OperatingStatesChangeAsTheRulesSay : Prop :=
  ∀ s s' : State, EngineInv s → step s = .next s' →
    (s'.fsm = .uninit → s.fsm = .uninit ∨ s.sched.head? = some .reset) ∧
    (s'.fsm = .unusable → s.fsm = .unusable ∨
      (s.fsm = .busy ∧ s.curOp = 1 ∧ s.phase = .idRd ∧
        ∃ r, s.sched.head? = some (.transport r) ∧ r ≠ .data [0xC0, 0x00, 0x43, 0x73])) ∧
    (s'.fsm = .ready → s.fsm = .ready ∨ (s.fsm = .busy ∧
      ((s.curOp = 1 ∧ s.phase = .idRd ∧ s.cfg.readVersionAtInit = false ∧
          s.sched.head? = some (.transport (.data [0xC0, 0x00, 0x43, 0x73]))) ∨
        (s.curOp = 1 ∧ s.phase = .verRd) ∨
        (s.curOp = 2 ∧ s.phase = .select) ∨ (s.curOp = 3 ∧ s.phase = .baseSettle)))) ∧
    (s'.phase = .verRd → s.phase = .verRd ∨ (s.phase = .idRd ∧
      s.sched.head? = some (.transport (.data [0xC0, 0x00, 0x43, 0x73])))) ∧
    (s'.fsm = .busy → (s.fsm = .busy ∧ s'.curOp = s.curOp) ∨
      (s.fsm ≠ .busy ∧ s'.curOp = 1) ∨ (s.fsm = .ready ∧ (s'.curOp = 2 ∨ s'.curOp = 3))) ∧
    (s.fsm = .unusable → s'.fsm ≠ .unusable → s.sched.head? = some .reset ∨
      (s.cmd = some 0x00000001 ∧ s'.fsm = .busy ∧ s'.curOp = 1))

/-- "A POLL never moves the engine to UNUSABLE" (R109): while a POLL is in progress a step leaves it in
progress or ends it in READY, unless the reset input is pulsed. -/
def Obligations.PollNeverMakesUnusable : Prop :=
  ∀ s s' : State, EngineInv s → s.fsm = .busy → s.curOp = 2 → step s = .next s' →
    s.sched.head? ≠ some .reset → s'.fsm = .busy ∨ s'.fsm = .ready

/-- "No other request is ever issued" (R76): a request that a step adds to the trace is one of T1 to
T8, and so a whole-register access of a register that may be accessed so (R40, R43). -/
def Obligations.OnlyListedRequestsAreIssued : Prop :=
  ∀ s s' : State, step s = .next s' → ∀ q, .treq q ∈ s'.trace → .treq q ∈ s.trace ∨
    ((q = .read 0x00 4 ∨ q = .read 0x0A 2 ∨ q = .read 0x10 4 ∨ (∃ h, q = .write 0x26 [h]) ∨
        q = .read 0x0C 4 ∨ q = .read 0x14 4 ∨ q = .read 0x18 2 ∨
        (∃ c : Half, q = .write 0x28 [c.extractLsb' 0 8, c.extractLsb' 8 8])) ∧
      ∃ g : Reg, q.toXReq.addr = g.addr ∧ q.toXReq.width = g.width ∧
        g.access = (if q.toXReq.kind = .read then Access.read else Access.write))

/-- The frame of every step that takes a Transport answer, faults included (R134): the operand
latches, HOSTERR, the offered command, the configuration, CUR_OP and MEAS stay. That `decOut` stays is
the model's choice: it records selections on the decoder's own ports only, not the uses the engine
makes of the decoder inside these steps (log entry 8). -/
def Obligations.AnswersLeaveOtherRegisters : Prop :=
  ∀ (s s' : State) (r : TRsp) (rest : List Move), s.sched = .transport r :: rest →
    step s = .next s' → s'.code = s.code ∧ s'.hours = s.hours ∧ s'.hostErr = s.hostErr ∧
      s'.cmd = s.cmd ∧ s'.cfg = s.cfg ∧ s'.curOp = s.curOp ∧ s'.meas = s.meas ∧
      s'.decOut = s.decOut ∧ s'.sched = rest

/-! ## Invariants -/

/-- The invariants of R36 hold after reset. -/
def Obligations.EngineInvariantAtReset : Prop := EngineInv State.reset

/-- Every step keeps the invariants of R36. -/
def Obligations.EngineInvariantIsKept : Prop :=
  ∀ s s' : State, EngineInv s → step s = .next s' → EngineInv s'

/-- The invariant of the whole machine holds after reset, whatever the schedule, the offered word and
the configuration. -/
def Obligations.MachineInvariantAtReset : Prop :=
  ∀ (l : List Move) (w : Option Word) (c : Config),
    MachineInv { State.reset with sched := l, cmd := w, cfg := c }

/-- Every step keeps the invariant of the whole machine: the engine's registers, what XREQ and MEAS
hold, the link between registers and trace, and the trace properties P1 to P6 (R36, R152). -/
def Obligations.MachineInvariantIsKept : Prop :=
  ∀ s s' : State, MachineInv s → step s = .next s' → MachineInv s'

/-- "Every run of the RDPE's step relation has these trace properties" P1 to P6 (R152): for every
schedule of the agents, every offered word and every configuration. -/
def Obligations.EveryRunHasTheTraceProperties : Prop :=
  ∀ (n : Nat) (l : List Move) (w : Option Word) (c : Config) (s : State),
    Sys2Proof.core.run n { State.reset with sched := l, cmd := w, cfg := c } = .next s →
    TraceOk s.trace

/-! ## Whole commands in the closed loop -/

/-- Progress (R153): with a Transport that answers and a timer that signals, every step of a command
in progress brings its response nearer. -/
def Obligations.EveryStepMakesProgress : Prop :=
  ∀ (env : Oracle) (pick : BitVec 4 → Nat) (s : State), env.keepsContract → SequencerInv s →
    s.fsm = .busy → stepsLeft (closedStep env pick s) < stepsLeft s

/-- The bounds of R153: INIT ends within 3 engine steps, SET_BASE within 3, POLL within 12, each with
its response. -/
def Obligations.CommandsEndWithinTheirBounds : Prop :=
  ∀ (env : Oracle) (pick : BitVec 4 → Nat) (s : State) (w : Word) (i : Instr),
    env.keepsContract → SequencerInv s → s.fsm ≠ .busy → s.cmd = some w →
    decode (.cmd w) = .ok i →
    ∃ n r, n ≤ (if opField w = 2 then 12 else 3) ∧
      (closedRun env pick n s).fsm ≠ .busy ∧ (closedRun env pick n s).cmd = none ∧
      (closedRun env pick n s).trace.head? = some (.resp r)

/-- INIT as a whole (R102 to R105, R127): for every answer of the Transport and both settings of
READ_VERSION_AT_INIT, the response and the state it leaves. -/
def Obligations.InitRefinesItsResponse : Prop :=
  ∀ (env : Oracle) (pick : BitVec 4 → Nat) (s : State), env.keepsContract → SequencerInv s →
    s.fsm ≠ .busy → s.cmd = some 0x00000001 →
    ∃ n, n ≤ 3 ∧ (closedRun env pick n s).cmd = none ∧
      (closedRun env pick n s).fsm = (initResponse env s.cfg.readVersionAtInit).2 ∧
      (closedRun env pick n s).trace.head?
        = some (.resp (initResponse env s.cfg.readVersionAtInit).1) ∧
      (closedRun env pick n s).hostErr = s.hostErr

/-- POLL as a whole (R109, R116): for every request, every order of the measurements and every answer
of the Transport, the response is the one each kind's own answers give, and the engine is READY. -/
def Obligations.PollRefinesItsResponse : Prop :=
  ∀ (env : Oracle) (pick : BitVec 4 → Nat) (s : State) (c w r t : Bool) (h : Byte),
    env.keepsContract → SequencerInv s → s.fsm = .ready → s.cmd = some (pollWord c w r t h) →
    ∃ n, n ≤ 12 ∧ (closedRun env pick n s).cmd = none ∧ (closedRun env pick n s).fsm = .ready ∧
      (closedRun env pick n s).trace.head? = some (.resp (pollResponse env c w r t)) ∧
      (closedRun env pick n s).hostErr = s.hostErr

/-- SET_BASE as a whole (R117 to R120): for either answer of the Transport to the write, the response OK
or TRANSPORT_ERROR, and READY. -/
def Obligations.SetBaseRefinesItsResponse : Prop :=
  ∀ (env : Oracle) (pick : BitVec 4 → Nat) (s : State) (c : Half), env.keepsContract →
    SequencerInv s → s.fsm = .ready → s.cmd = some (setBaseWord c) →
    ∃ n, n ≤ 3 ∧ (closedRun env pick n s).cmd = none ∧ (closedRun env pick n s).fsm = .ready ∧
      (closedRun env pick n s).trace.head? = some (.resp (setBaseResponse env)) ∧
      (closedRun env pick n s).hostErr = s.hostErr

/-- Failure isolation (R116): "a POLL's result for kind `k` depends only on the transport answers to
the requests of `k`". Two Transports that answer the requests of `k` alike give it the same MST and
data word, whatever else they answer and in whatever order the kinds are drawn. -/
def Obligations.PollFailuresAreIsolated : Prop :=
  ∀ (env env' : Oracle) (pick pick' : BitVec 4 → Nat) (s : State) (c w r t : Bool) (h : Byte)
    (k : Kind), env.keepsContract → env'.keepsContract → SequencerInv s → s.fsm = .ready →
    s.cmd = some (pollWord c w r t h) →
    (∀ q : XReq, q.addr = k.addr ∨ (k = .win ∧ q.addr = 0x26) → env q = env' q) →
    ∃ n n' ρ ρ', n ≤ 12 ∧ n' ≤ 12 ∧
      (closedRun env pick n s).cmd = none ∧ (closedRun env pick n s).fsm = .ready ∧
      (closedRun env' pick' n' s).cmd = none ∧ (closedRun env' pick' n' s).fsm = .ready ∧
      (closedRun env pick n s).trace.head? = some (.resp ρ) ∧
      (closedRun env' pick' n' s).trace.head? = some (.resp ρ') ∧
      rw0Mst ρ.rw0 k = rw0Mst ρ'.rw0 k ∧ respData ρ k = respData ρ' k

/-! ## The host adapter -/

/-- The binary64 rendering of a quotient is the nearest binary64 number, ties to even (R93), for either
sign and every quotient below 2^1023, and so for every rainfall count over 10000 and every working
time over 60. -/
def Obligations.RoundingIsNearestTiesToEven : Prop :=
  (∀ (neg : Bool) (p q : Nat), 0 < q → p < 2 ^ 1023 * q →
    isNearestF64 ((if neg then -1 else 1) * ((p : Rat) / (q : Rat))) (nearestF64 neg p q)) ∧
  (∀ p q : Nat, 0 < q → p < 2 ^ 1023 * q → isNearestF64 ((p : Rat) / (q : Rat)) (toF64 p q)) ∧
  (∀ c : Word, isNearestF64 ((c.toNat : Rat) / 10000) (rainfallF64 c) ∧
    isNearestF64 ((c.toNat : Rat) / 60) (workHoursF64 c))

/-- The host's results (R80): `Ok(Some v)`, `Ok(None)` or `Err(fault)` of `initialize()` by STATUS and
FW_VALID, `Ok(())` of `set_base_rainfall` when STATUS = OK, and a POLL kind's decoded value when its
MST is VALID, `Unavailable` otherwise (R124). -/
def Obligations.HostResultsFollowTheResponse : Prop :=
  (∀ r : Resp, r.rw0.extractLsb' 0 4 = 0 → r.rw0.getLsbD 8 = true →
    hostInitialize r = .ok (some (r.rw1.extractLsb' 0 16))) ∧
  (∀ r : Resp, r.rw0.extractLsb' 0 4 = 0 → r.rw0.getLsbD 8 = false →
    hostInitialize r = .ok none) ∧
  (∀ r : Resp, r.rw0.extractLsb' 0 4 = 1 → hostInitialize r = .error .identityMismatch) ∧
  (∀ r : Resp, r.rw0.extractLsb' 0 4 = 2 → hostInitialize r = .error .transportError ∧
    hostSetBase r = .error .transportError) ∧
  (∀ r : Resp, r.rw0.extractLsb' 0 4 = 3 → hostInitialize r = .error .shortRead) ∧
  (∀ r : Resp, r.rw0.extractLsb' 0 4 = 0 → hostSetBase r = .ok ()) ∧
  (∀ (r : Resp) (k : Kind), r.rw0.extractLsb' (10 + 2 * k.index) 2 = 1 →
    publish k r = publishedValue k (respData r k)) ∧
  (∀ (r : Resp) (k : Kind), r.rw0.extractLsb' (10 + 2 * k.index) 2 ≠ 1 →
    publish k r = .unavailable)

/-- `baseQuantize(v)` (R95). NaN and the infinities are refused. For a finite `v`, of value `x`, the
product `v * 10000.0` is the binary64 number nearest to it, ties to even, where it is below 2^1023 in
size, and `v` is refused where it is not. With `p` the product's value, p <= -0.5 and p >= 65535.5
are refused, and every other has the code floor(|p| + 0.5), which is 0 for a negative p; the code over
10000 is then within 0.00005 + 10^-12 of `x`. The binary64 format and rounding are the spec's own
general knowledge (log entry 15). -/
def Obligations.BaseCodeIsTheRoundedProduct : Prop :=
  (∀ v : BitVec 64, f64Value v = .nan → baseQuantize v = none) ∧
  (∀ (v : BitVec 64) (neg : Bool), f64Value v = .inf neg → baseQuantize v = none) ∧
  (∀ (v : BitVec 64) (neg : Bool) (mant : Nat) (exp : Int) (x : Rat),
    f64Value v = .finite neg mant exp → x = dyadicRat neg mant exp →
    (|x * 10000| < 2 ^ 1023 → isNearestF64 (x * 10000) (mulF64 neg mant exp 10000)) ∧
    (2 ^ 1023 ≤ |x * 10000| → baseQuantize v = none) ∧
    (∀ (negP : Bool) (mantP : Nat) (expP : Int) (p : Rat),
      f64Value (mulF64 neg mant exp 10000) = .finite negP mantP expP →
      p = dyadicRat negP mantP expP →
      (p ≤ -1 / 2 ∨ 131071 / 2 ≤ p → baseQuantize v = none) ∧
      (-1 / 2 < p → p < 131071 / 2 → ∃ c : Half, baseQuantize v = some c ∧
        (c.toNat : Int) = ⌊|p| + 1 / 2⌋ ∧ (p < 0 → c = 0) ∧
        |(c.toNat : Rat) / 10000 - x| ≤ 1 / 20000 + 1 / 10 ^ 12)))

/-! ## The Host's move, and the codes of the sequencer -/

/-- The Host's move (R98): a word offered while the channel is empty stands on it afterwards, and
nothing else changes. The Host offers one word at a time (R147): while a word stands on the channel
the move changes nothing but the schedule, which is the model's form (DEDUCED, log entry 11). -/
def Obligations.HostOffersOneWordAtATime : Prop :=
  ∀ (s : State) (w : Word) (rest : List Move), s.sched = .host w :: rest →
    (s.cmd = none → step s = .next { s with sched := rest, cmd := some w }) ∧
    (∀ v, s.cmd = some v → step s = .next { s with sched := rest })

/-- The values of FSM_STATE (R17), PHASE (R18) and the measurement kinds, as MEAS and the bits of PENDING
number them (R20, R21, R106). -/
def Obligations.SequencerCodes : Prop :=
  (FsmState.bits .uninit = 0 ∧ FsmState.bits .ready = 1 ∧ FsmState.bits .unusable = 2 ∧
    FsmState.bits .busy = 3) ∧
  (Phase.bits .none = 0 ∧ Phase.bits .idRd = 1 ∧ Phase.bits .verRd = 2 ∧ Phase.bits .select = 3 ∧
    Phase.bits .measRd = 4 ∧ Phase.bits .winWr = 5 ∧ Phase.bits .winSettle = 6 ∧
    Phase.bits .winRd = 7 ∧ Phase.bits .baseWr = 8 ∧ Phase.bits .baseSettle = 9) ∧
  (Kind.bits .cum = 0 ∧ Kind.bits .win = 1 ∧ Kind.bits .raw = 2 ∧ Kind.bits .time = 3 ∧
    Kind.index .cum = 0 ∧ Kind.index .win = 1 ∧ Kind.index .raw = 2 ∧ Kind.index .time = 3)
end

