-- ==== Sys2Proof/Laws/Binary64.lean ====
section
/-! SUPPORT. What each function of the binary64 renderings gives (40_decoder.md R93): the rounding to an
integer, the exponent at which it is done, and the encoding of the result. -/

namespace Sys2Proof.Machine

/-- `nearestEven num den` is within one half of the quotient, and even at distance one half. -/
theorem nearestEven_spec (num : Nat) {den : Nat} (hd : 0 < den) :
    2 * num ≤ den * (2 * nearestEven num den + 1) ∧
    den * (2 * nearestEven num den) ≤ 2 * num + den ∧
    ((2 * num = den * (2 * nearestEven num den + 1) ∨
      den * (2 * nearestEven num den) = 2 * num + den) → nearestEven num den % 2 = 0) := by
  have h1 := Nat.div_add_mod num den
  have h2 := Nat.mod_lt num hd
  unfold nearestEven
  generalize num / den = q at *
  generalize num % den = r at *
  subst h1
  have e1 : den * (2 * q + 1) = 2 * (den * q) + den := by ring
  have e2 : den * (2 * (q + 1) + 1) = 2 * (den * q) + 3 * den := by ring
  have e3 : den * (2 * q) = 2 * (den * q) := by ring
  have e4 : den * (2 * (q + 1)) = 2 * (den * q) + 2 * den := by ring
  simp only
  split_ifs <;> simp only [e1, e2, e3, e4] <;> refine ⟨by omega, by omega, by omega⟩

/-- The same over the rationals. -/
theorem nearestEven_half (num : Nat) {den : Nat} (hd : 0 < den) :
    |(nearestEven num den : Rat) - (num : Rat) / den| ≤ 1 / 2 ∧
    (|(nearestEven num den : Rat) - (num : Rat) / den| = 1 / 2 → nearestEven num den % 2 = 0) := by
  obtain ⟨h1, h2, h3⟩ := nearestEven_spec num hd
  generalize nearestEven num den = m at *
  have hd' : (0 : Rat) < den := by exact_mod_cast hd
  have hx : (den : Rat) * ((num : Rat) / den) = num := by field_simp
  generalize (num : Rat) / den = x at *
  have q1 : 2 * (num : Rat) ≤ den * (2 * m + 1) := by exact_mod_cast h1
  have q2 : (den : Rat) * (2 * m) ≤ 2 * num + den := by exact_mod_cast h2
  have b1 : x ≤ m + 1 / 2 := by nlinarith
  have b2 : (m : Rat) - 1 / 2 ≤ x := by nlinarith
  refine ⟨abs_le.mpr ⟨by linarith, by linarith⟩, fun h => h3 ?_⟩
  rcases abs_choice ((m : Rat) - x) with ha | ha <;> rw [ha] at h
  · right
    have : (den : Rat) * (2 * m) = 2 * num + den := by rw [← hx]; linear_combination 2 * den * h
    exact_mod_cast this
  · left
    have : 2 * (num : Rat) = den * (2 * m + 1) := by rw [← hx]; linear_combination 2 * den * h
    exact_mod_cast this

/-- No integer is nearer to the quotient than `nearestEven num den`, and where another one is equally
near, it is even. -/
theorem nearestEven_nearest (num : Nat) {den : Nat} (hd : 0 < den) (k : Int) :
    |(nearestEven num den : Rat) - (num : Rat) / den| ≤ |(k : Rat) - (num : Rat) / den| ∧
    (|(nearestEven num den : Rat) - (num : Rat) / den| = |(k : Rat) - (num : Rat) / den| →
      k = nearestEven num den ∨ nearestEven num den % 2 = 0) := by
  obtain ⟨h1, h2⟩ := nearestEven_half num hd
  generalize nearestEven num den = m at *
  generalize (num : Rat) / den = x at *
  by_cases hk : k = m
  · subst hk; simp
  · have h3 : (1 : Rat) ≤ |(k : Rat) - m| := by
      have : (1 : Int) ≤ |k - m| := Int.one_le_abs (sub_ne_zero.mpr hk)
      exact_mod_cast this
    have h4 : |(k : Rat) - m| ≤ |(k : Rat) - x| + |(m : Rat) - x| := by
      calc |(k : Rat) - m| = |((k : Rat) - x) - ((m : Rat) - x)| := by ring_nf
        _ ≤ _ := abs_sub _ _
    exact ⟨by linarith, fun h => .inr (h2 (by linarith))⟩

/-- `dyadic m e` is the fraction m * 2^e. -/
theorem dyadic_spec (m : Nat) (e : Int) :
    0 < (dyadic m e).2 ∧ ((dyadic m e).1 : Rat) / (dyadic m e).2 = m * (2 : Rat) ^ e := by
  unfold dyadic
  split
  · rename_i h
    lift e to Nat using h
    simp
  · rename_i h
    obtain ⟨n, rfl⟩ : ∃ n : Nat, e = -n := ⟨(-e).toNat, by omega⟩
    simp [div_eq_mul_inv]

/-- `scaleDown p q e` is the fraction (p / q) / 2^e. -/
theorem scaleDown_spec (p : Nat) {q : Nat} (hq : 0 < q) (e : Int) :
    0 < (scaleDown p q e).2 ∧
      ((scaleDown p q e).1 : Rat) / (scaleDown p q e).2 = (p : Rat) / q / (2 : Rat) ^ e := by
  unfold scaleDown
  split
  · rename_i h
    lift e to Nat using h
    exact ⟨by positivity, by simp [div_div]⟩
  · rename_i h
    obtain ⟨n, rfl⟩ : ∃ n : Nat, e = -n := ⟨(-e).toNat, by omega⟩
    refine ⟨hq, ?_⟩
    simp only [neg_neg, Int.toNat_natCast, Nat.cast_mul, Nat.cast_pow, Nat.cast_ofNat, zpow_neg,
      zpow_natCast, div_inv_eq_mul]
    ring

/-- A positive natural number lies between the power of two its logarithm names and the next. -/
theorem log2_bounds {n : Nat} (h : 0 < n) :
    (2 : Rat) ^ (Nat.log2 n : Int) ≤ n ∧ (n : Rat) < 2 ^ ((Nat.log2 n : Int) + 1) := by
  have h1 := Nat.log2_self_le (Nat.pos_iff_ne_zero.mp h)
  have h2 := @Nat.lt_log2_self n
  constructor
  · rw [zpow_natCast]; exact_mod_cast h1
  · have : ((Nat.log2 n : Int) + 1) = ((Nat.log2 n + 1 : Nat) : Int) := by push_cast; rfl
    rw [this, zpow_natCast]; exact_mod_cast h2

/-- At the exponent at which `p / q` is rounded it has at most 53 bits before the point, and exactly 53
unless the exponent is that of the subnormal numbers. -/
theorem roundingExponent_spec {p q : Nat} (hp : 0 < p) (hq : 0 < q) :
    -1074 ≤ roundingExponent p q ∧
    (p : Rat) / q < 2 ^ (roundingExponent p q + 53) ∧
    (roundingExponent p q = -1074 ∨ (2 : Rat) ^ (roundingExponent p q + 52) ≤ (p : Rat) / q) := by
  obtain ⟨p1, p2⟩ := log2_bounds hp
  obtain ⟨q1, q2⟩ := log2_bounds hq
  have hq' : (0 : Rat) < q := by exact_mod_cast hq
  have two : (2 : Rat) ≠ 0 := two_ne_zero
  simp only [roundingExponent]
  generalize hE : (Nat.log2 p : Int) - (Nat.log2 q : Int) - 52 = e
  obtain ⟨s1, s2⟩ := scaleDown_spec p hq e
  generalize (scaleDown p q e).1 = num at *
  generalize (scaleDown p q e).2 = den at *
  have up : (p : Rat) / q < 2 ^ (e + 53) := by
    rw [div_lt_iff₀ hq']
    calc (p : Rat) < 2 ^ ((Nat.log2 p : Int) + 1) := p2
      _ = 2 ^ (e + 53) * 2 ^ (Nat.log2 q : Int) := by rw [← zpow_add₀ two]; congr 1; omega
      _ ≤ _ := by gcongr
  have lo : (2 : Rat) ^ (e + 51) ≤ (p : Rat) / q := by
    rw [le_div_iff₀ hq']
    calc (2 : Rat) ^ (e + 51) * q ≤ 2 ^ (e + 51) * 2 ^ ((Nat.log2 q : Int) + 1) := by gcongr
      _ = 2 ^ (Nat.log2 p : Int) := by rw [← zpow_add₀ two]; congr 1; omega
      _ ≤ _ := p1
  have hs : num / den < 2 ^ 52 ↔ (p : Rat) / q < 2 ^ (e + 52) := by
    have hden : (0 : Rat) < den := by exact_mod_cast s1
    rw [Nat.div_lt_iff_lt_mul s1, add_comm e, zpow_add₀ two, ← div_lt_iff₀ (by positivity), ← s2,
      div_lt_iff₀ hden]
    norm_cast
  have mono : ∀ {a b : Int}, a ≤ b → (2 : Rat) ^ a ≤ 2 ^ b := fun h =>
    zpow_le_zpow_right₀ (by norm_num) h
  by_cases hlt : num / den < 2 ^ 52
  · have hx := hs.mp hlt
    simp only [hlt, if_true]
    rcases le_total (-1074 : Int) (e - 1) with hm | hm
    · rw [max_eq_left hm]
      exact ⟨hm, by rwa [show e - 1 + 53 = e + 52 by omega],
        .inr (by rwa [show e - 1 + 52 = e + 51 by omega])⟩
    · rw [max_eq_right hm]
      exact ⟨le_refl _, hx.trans_le (mono (by omega)), .inl rfl⟩
  · have hx := not_lt.mp (fun h => hlt (hs.mpr h))
    simp only [hlt, if_false]
    rcases le_total (-1074 : Int) e with hm | hm
    · rw [max_eq_left hm]
      exact ⟨hm, up, .inr hx⟩
    · rw [max_eq_right hm]
      exact ⟨le_refl _, up.trans_le (mono (by omega)), .inl rfl⟩

/-- The significand and exponent of a finite binary64 number. -/
theorem f64Value_finite_bounds {x : BitVec 64} {neg : Bool} {m : Nat} {e : Int}
    (h : f64Value x = .finite neg m e) : m < 2 ^ 53 ∧ -1074 ≤ e := by
  have hf := (x.extractLsb' 0 52).isLt
  simp only [f64Value] at h
  split at h
  · split at h <;> cases h
  · split at h
    · cases h
      exact ⟨by omega, le_refl _⟩
    · cases h
      exact ⟨by omega, by omega⟩

/-- The value of an encoding that is given by its sign, biased exponent and fraction. -/
theorem f64Value_ofNat (neg : Bool) {b f : Nat} (hb : b < 2047) (hf : f < 2 ^ 52) :
    f64Value (BitVec.ofNat 64 ((if neg then 2 ^ 63 else 0) + b * 2 ^ 52 + f))
      = if b = 0 then .finite neg f (-1074) else .finite neg (2 ^ 52 + f) ((b : Int) - 1075) := by
  generalize hn : (if neg then 2 ^ 63 else 0) + b * 2 ^ 52 + f = n
  have hlt : n < 2 ^ 64 := by cases neg <;> simp at hn <;> omega
  have he : ((BitVec.ofNat 64 n).extractLsb' 52 11).toNat = b := by
    rw [BitVec.extractLsb'_toNat, BitVec.toNat_ofNat, Nat.mod_eq_of_lt hlt, Nat.shiftRight_eq_div_pow]
    cases neg <;> simp at hn <;> omega
  have hfr : ((BitVec.ofNat 64 n).extractLsb' 0 52).toNat = f := by
    rw [BitVec.extractLsb'_toNat, BitVec.toNat_ofNat, Nat.mod_eq_of_lt hlt]
    cases neg <;> simp at hn <;> omega
  have hs : (BitVec.ofNat 64 n).getLsbD 63 = neg := by
    rw [BitVec.getLsbD_ofNat, Nat.testBit_eq_decide_div_mod_eq]
    cases neg <;> simp at hn <;> simp <;> omega
  simp only [f64Value, he, hfr, hs]
  rw [if_neg (by omega)]

/-- The encoding of an infinity. -/
theorem f64Value_infinity (neg : Bool) :
    f64Value (BitVec.ofNat 64 ((if neg then 2 ^ 63 else 0) + 2047 * 2 ^ 52)) = .inf neg := by
  cases neg <;> decide

/-- `encodeF64` encodes the number it is given, a carry out of the significand moved into the exponent,
or the infinity where the exponent is past the largest one. -/
theorem f64Value_encodeF64 (neg : Bool) {m : Nat} {e : Int} (hm : m ≤ 2 ^ 53) (he : -1074 ≤ e)
    (hsub : m < 2 ^ 52 → e = -1074) :
    f64Value (encodeF64 neg m e)
      = if m = 2 ^ 53 then (if e ≤ 970 then .finite neg (2 ^ 52) (e + 1) else .inf neg)
        else if e ≤ 971 then .finite neg m e else .inf neg := by
  by_cases hc : m = 2 ^ 53
  · subst hc
    simp only [encodeF64, decide_true, if_true, lt_irrefl, if_false, Nat.sub_self]
    by_cases hx : e ≤ 970
    · have := f64Value_ofNat neg (b := (e + 1 + 1075).toNat) (f := 0) (by omega) (by norm_num)
      rw [if_neg (show (e + 1 + 1075).toNat ≠ 0 by omega)] at this
      rw [if_neg (show ¬ 2047 ≤ (e + 1 + 1075).toNat by omega), if_pos hx, this]
      congr 1
      omega
    · rw [if_pos (show 2047 ≤ (e + 1 + 1075).toNat by omega), if_neg hx]
      exact f64Value_infinity neg
  · by_cases hs : m < 2 ^ 52
    · have := f64Value_ofNat neg (b := 0) (f := m) (by norm_num) hs
      simp only [encodeF64, hc, decide_false, Bool.false_eq_true, if_false, hs, if_true]
      rw [if_pos (show e ≤ 971 by rw [hsub hs]; norm_num), hsub hs]
      simpa using this
    · simp only [encodeF64, hc, decide_false, Bool.false_eq_true, if_false, hs]
      by_cases hx : e ≤ 971
      · have := f64Value_ofNat neg (b := (e + 1075).toNat) (f := m - 2 ^ 52) (by omega) (by omega)
        rw [if_neg (show (e + 1075).toNat ≠ 0 by omega)] at this
        rw [if_neg (show ¬ 2047 ≤ (e + 1075).toNat by omega), if_pos hx, this,
          show 2 ^ 52 + (m - 2 ^ 52) = m by omega,
          show ((e + 1075).toNat : Int) - 1075 = e by omega]
      · rw [if_pos (show 2047 ≤ (e + 1075).toNat by omega), if_neg hx]
        exact f64Value_infinity neg

end Sys2Proof.Machine
end

