-- ==== Sys2Proof/Laws/State.lean ====
section
/-! SUPPORT. One lemma per field per update: what each named operation leaves in each field of the
state, so that no proof unfolds a record update. -/

namespace Sys2Proof.Machine

/-! ### setSched -/

@[simp] theorem setSched_fsm (l : List Move) (s : State) : (setSched l s).fsm = s.fsm := rfl
@[simp] theorem setSched_phase (l : List Move) (s : State) : (setSched l s).phase = s.phase := rfl
@[simp] theorem setSched_curOp (l : List Move) (s : State) : (setSched l s).curOp = s.curOp := rfl
@[simp] theorem setSched_meas (l : List Move) (s : State) : (setSched l s).meas = s.meas := rfl
@[simp] theorem setSched_pending (l : List Move) (s : State) :
    (setSched l s).pending = s.pending := rfl
@[simp] theorem setSched_hours (l : List Move) (s : State) : (setSched l s).hours = s.hours := rfl
@[simp] theorem setSched_code (l : List Move) (s : State) : (setSched l s).code = s.code := rfl
@[simp] theorem setSched_wrOk (l : List Move) (s : State) : (setSched l s).wrOk = s.wrOk := rfl
@[simp] theorem setSched_xreq (l : List Move) (s : State) : (setSched l s).xreq = s.xreq := rfl
@[simp] theorem setSched_settle (l : List Move) (s : State) :
    (setSched l s).settle = s.settle := rfl
@[simp] theorem setSched_resp (l : List Move) (s : State) : (setSched l s).resp = s.resp := rfl
@[simp] theorem setSched_hostErr (l : List Move) (s : State) :
    (setSched l s).hostErr = s.hostErr := rfl
@[simp] theorem setSched_cmd (l : List Move) (s : State) : (setSched l s).cmd = s.cmd := rfl
@[simp] theorem setSched_cfg (l : List Move) (s : State) : (setSched l s).cfg = s.cfg := rfl
@[simp] theorem setSched_decOut (l : List Move) (s : State) :
    (setSched l s).decOut = s.decOut := rfl
@[simp] theorem setSched_sched (l : List Move) (s : State) : (setSched l s).sched = l := rfl
@[simp] theorem setSched_draws (l : List Move) (s : State) : (setSched l s).draws = s.draws := rfl
@[simp] theorem setSched_trace (l : List Move) (s : State) : (setSched l s).trace = s.trace := rfl

/-! ### putCmd -/

@[simp] theorem putCmd_fsm (w : Word) (s : State) : (putCmd w s).fsm = s.fsm := rfl
@[simp] theorem putCmd_phase (w : Word) (s : State) : (putCmd w s).phase = s.phase := rfl
@[simp] theorem putCmd_curOp (w : Word) (s : State) : (putCmd w s).curOp = s.curOp := rfl
@[simp] theorem putCmd_meas (w : Word) (s : State) : (putCmd w s).meas = s.meas := rfl
@[simp] theorem putCmd_pending (w : Word) (s : State) : (putCmd w s).pending = s.pending := rfl
@[simp] theorem putCmd_hours (w : Word) (s : State) : (putCmd w s).hours = s.hours := rfl
@[simp] theorem putCmd_code (w : Word) (s : State) : (putCmd w s).code = s.code := rfl
@[simp] theorem putCmd_wrOk (w : Word) (s : State) : (putCmd w s).wrOk = s.wrOk := rfl
@[simp] theorem putCmd_xreq (w : Word) (s : State) : (putCmd w s).xreq = s.xreq := rfl
@[simp] theorem putCmd_settle (w : Word) (s : State) : (putCmd w s).settle = s.settle := rfl
@[simp] theorem putCmd_resp (w : Word) (s : State) : (putCmd w s).resp = s.resp := rfl
@[simp] theorem putCmd_hostErr (w : Word) (s : State) : (putCmd w s).hostErr = s.hostErr := rfl
@[simp] theorem putCmd_cmd (w : Word) (s : State) : (putCmd w s).cmd = some w := rfl
@[simp] theorem putCmd_cfg (w : Word) (s : State) : (putCmd w s).cfg = s.cfg := rfl
@[simp] theorem putCmd_decOut (w : Word) (s : State) : (putCmd w s).decOut = s.decOut := rfl
@[simp] theorem putCmd_sched (w : Word) (s : State) : (putCmd w s).sched = s.sched := rfl
@[simp] theorem putCmd_draws (w : Word) (s : State) : (putCmd w s).draws = s.draws := rfl
@[simp] theorem putCmd_trace (w : Word) (s : State) : (putCmd w s).trace = s.trace := rfl

/-! ### emit -/

@[simp] theorem emit_fsm (e : Event) (s : State) : (emit e s).fsm = s.fsm := rfl
@[simp] theorem emit_phase (e : Event) (s : State) : (emit e s).phase = s.phase := rfl
@[simp] theorem emit_curOp (e : Event) (s : State) : (emit e s).curOp = s.curOp := rfl
@[simp] theorem emit_meas (e : Event) (s : State) : (emit e s).meas = s.meas := rfl
@[simp] theorem emit_pending (e : Event) (s : State) : (emit e s).pending = s.pending := rfl
@[simp] theorem emit_hours (e : Event) (s : State) : (emit e s).hours = s.hours := rfl
@[simp] theorem emit_code (e : Event) (s : State) : (emit e s).code = s.code := rfl
@[simp] theorem emit_wrOk (e : Event) (s : State) : (emit e s).wrOk = s.wrOk := rfl
@[simp] theorem emit_xreq (e : Event) (s : State) : (emit e s).xreq = s.xreq := rfl
@[simp] theorem emit_settle (e : Event) (s : State) : (emit e s).settle = s.settle := rfl
@[simp] theorem emit_resp (e : Event) (s : State) : (emit e s).resp = s.resp := rfl
@[simp] theorem emit_hostErr (e : Event) (s : State) : (emit e s).hostErr = s.hostErr := rfl
@[simp] theorem emit_cmd (e : Event) (s : State) : (emit e s).cmd = s.cmd := rfl
@[simp] theorem emit_cfg (e : Event) (s : State) : (emit e s).cfg = s.cfg := rfl
@[simp] theorem emit_decOut (e : Event) (s : State) : (emit e s).decOut = s.decOut := rfl
@[simp] theorem emit_sched (e : Event) (s : State) : (emit e s).sched = s.sched := rfl
@[simp] theorem emit_draws (e : Event) (s : State) : (emit e s).draws = s.draws := rfl
@[simp] theorem emit_trace (e : Event) (s : State) : (emit e s).trace = e :: s.trace := rfl

/-! ### issue -/

@[simp] theorem issue_fsm (q : TReq) (s : State) : (issue q s).fsm = s.fsm := rfl
@[simp] theorem issue_phase (q : TReq) (s : State) : (issue q s).phase = s.phase := rfl
@[simp] theorem issue_curOp (q : TReq) (s : State) : (issue q s).curOp = s.curOp := rfl
@[simp] theorem issue_meas (q : TReq) (s : State) : (issue q s).meas = s.meas := rfl
@[simp] theorem issue_pending (q : TReq) (s : State) : (issue q s).pending = s.pending := rfl
@[simp] theorem issue_hours (q : TReq) (s : State) : (issue q s).hours = s.hours := rfl
@[simp] theorem issue_code (q : TReq) (s : State) : (issue q s).code = s.code := rfl
@[simp] theorem issue_wrOk (q : TReq) (s : State) : (issue q s).wrOk = s.wrOk := rfl
@[simp] theorem issue_xreq (q : TReq) (s : State) : (issue q s).xreq = some q.toXReq := rfl
@[simp] theorem issue_settle (q : TReq) (s : State) : (issue q s).settle = s.settle := rfl
@[simp] theorem issue_resp (q : TReq) (s : State) : (issue q s).resp = s.resp := rfl
@[simp] theorem issue_hostErr (q : TReq) (s : State) : (issue q s).hostErr = s.hostErr := rfl
@[simp] theorem issue_cmd (q : TReq) (s : State) : (issue q s).cmd = s.cmd := rfl
@[simp] theorem issue_cfg (q : TReq) (s : State) : (issue q s).cfg = s.cfg := rfl
@[simp] theorem issue_decOut (q : TReq) (s : State) : (issue q s).decOut = s.decOut := rfl
@[simp] theorem issue_sched (q : TReq) (s : State) : (issue q s).sched = s.sched := rfl
@[simp] theorem issue_draws (q : TReq) (s : State) : (issue q s).draws = s.draws := rfl
@[simp] theorem issue_trace (q : TReq) (s : State) : (issue q s).trace = .treq q :: s.trace := rfl

/-! ### takeTRsp -/

@[simp] theorem takeTRsp_fsm (r : TRsp) (s : State) : (takeTRsp r s).fsm = s.fsm := rfl
@[simp] theorem takeTRsp_phase (r : TRsp) (s : State) : (takeTRsp r s).phase = s.phase := rfl
@[simp] theorem takeTRsp_curOp (r : TRsp) (s : State) : (takeTRsp r s).curOp = s.curOp := rfl
@[simp] theorem takeTRsp_meas (r : TRsp) (s : State) : (takeTRsp r s).meas = s.meas := rfl
@[simp] theorem takeTRsp_pending (r : TRsp) (s : State) : (takeTRsp r s).pending = s.pending := rfl
@[simp] theorem takeTRsp_hours (r : TRsp) (s : State) : (takeTRsp r s).hours = s.hours := rfl
@[simp] theorem takeTRsp_code (r : TRsp) (s : State) : (takeTRsp r s).code = s.code := rfl
@[simp] theorem takeTRsp_wrOk (r : TRsp) (s : State) : (takeTRsp r s).wrOk = s.wrOk := rfl
@[simp] theorem takeTRsp_xreq (r : TRsp) (s : State) : (takeTRsp r s).xreq = none := rfl
@[simp] theorem takeTRsp_settle (r : TRsp) (s : State) : (takeTRsp r s).settle = s.settle := rfl
@[simp] theorem takeTRsp_resp (r : TRsp) (s : State) : (takeTRsp r s).resp = s.resp := rfl
@[simp] theorem takeTRsp_hostErr (r : TRsp) (s : State) : (takeTRsp r s).hostErr = s.hostErr := rfl
@[simp] theorem takeTRsp_cmd (r : TRsp) (s : State) : (takeTRsp r s).cmd = s.cmd := rfl
@[simp] theorem takeTRsp_cfg (r : TRsp) (s : State) : (takeTRsp r s).cfg = s.cfg := rfl
@[simp] theorem takeTRsp_decOut (r : TRsp) (s : State) : (takeTRsp r s).decOut = s.decOut := rfl
@[simp] theorem takeTRsp_sched (r : TRsp) (s : State) : (takeTRsp r s).sched = s.sched := rfl
@[simp] theorem takeTRsp_draws (r : TRsp) (s : State) : (takeTRsp r s).draws = s.draws := rfl
@[simp] theorem takeTRsp_trace (r : TRsp) (s : State) :
    (takeTRsp r s).trace = .trsp r :: s.trace := rfl

/-! ### settleStart -/

@[simp] theorem settleStart_fsm (s : State) : (settleStart s).fsm = s.fsm := rfl
@[simp] theorem settleStart_phase (s : State) : (settleStart s).phase = s.phase := rfl
@[simp] theorem settleStart_curOp (s : State) : (settleStart s).curOp = s.curOp := rfl
@[simp] theorem settleStart_meas (s : State) : (settleStart s).meas = s.meas := rfl
@[simp] theorem settleStart_pending (s : State) : (settleStart s).pending = s.pending := rfl
@[simp] theorem settleStart_hours (s : State) : (settleStart s).hours = s.hours := rfl
@[simp] theorem settleStart_code (s : State) : (settleStart s).code = s.code := rfl
@[simp] theorem settleStart_wrOk (s : State) : (settleStart s).wrOk = s.wrOk := rfl
@[simp] theorem settleStart_xreq (s : State) : (settleStart s).xreq = s.xreq := rfl
@[simp] theorem settleStart_settle (s : State) : (settleStart s).settle = true := rfl
@[simp] theorem settleStart_resp (s : State) : (settleStart s).resp = s.resp := rfl
@[simp] theorem settleStart_hostErr (s : State) : (settleStart s).hostErr = s.hostErr := rfl
@[simp] theorem settleStart_cmd (s : State) : (settleStart s).cmd = s.cmd := rfl
@[simp] theorem settleStart_cfg (s : State) : (settleStart s).cfg = s.cfg := rfl
@[simp] theorem settleStart_decOut (s : State) : (settleStart s).decOut = s.decOut := rfl
@[simp] theorem settleStart_sched (s : State) : (settleStart s).sched = s.sched := rfl
@[simp] theorem settleStart_draws (s : State) : (settleStart s).draws = s.draws := rfl
@[simp] theorem settleStart_trace (s : State) :
    (settleStart s).trace = .settleStart :: s.trace := rfl

/-! ### takeSettleDone -/

@[simp] theorem takeSettleDone_fsm (s : State) : (takeSettleDone s).fsm = s.fsm := rfl
@[simp] theorem takeSettleDone_phase (s : State) : (takeSettleDone s).phase = s.phase := rfl
@[simp] theorem takeSettleDone_curOp (s : State) : (takeSettleDone s).curOp = s.curOp := rfl
@[simp] theorem takeSettleDone_meas (s : State) : (takeSettleDone s).meas = s.meas := rfl
@[simp] theorem takeSettleDone_pending (s : State) : (takeSettleDone s).pending = s.pending := rfl
@[simp] theorem takeSettleDone_hours (s : State) : (takeSettleDone s).hours = s.hours := rfl
@[simp] theorem takeSettleDone_code (s : State) : (takeSettleDone s).code = s.code := rfl
@[simp] theorem takeSettleDone_wrOk (s : State) : (takeSettleDone s).wrOk = s.wrOk := rfl
@[simp] theorem takeSettleDone_xreq (s : State) : (takeSettleDone s).xreq = s.xreq := rfl
@[simp] theorem takeSettleDone_settle (s : State) : (takeSettleDone s).settle = false := rfl
@[simp] theorem takeSettleDone_resp (s : State) : (takeSettleDone s).resp = s.resp := rfl
@[simp] theorem takeSettleDone_hostErr (s : State) : (takeSettleDone s).hostErr = s.hostErr := rfl
@[simp] theorem takeSettleDone_cmd (s : State) : (takeSettleDone s).cmd = s.cmd := rfl
@[simp] theorem takeSettleDone_cfg (s : State) : (takeSettleDone s).cfg = s.cfg := rfl
@[simp] theorem takeSettleDone_decOut (s : State) : (takeSettleDone s).decOut = s.decOut := rfl
@[simp] theorem takeSettleDone_sched (s : State) : (takeSettleDone s).sched = s.sched := rfl
@[simp] theorem takeSettleDone_draws (s : State) : (takeSettleDone s).draws = s.draws := rfl
@[simp] theorem takeSettleDone_trace (s : State) :
    (takeSettleDone s).trace = .settleDone :: s.trace := rfl

/-! ### setPhase -/

@[simp] theorem setPhase_fsm (p : Phase) (s : State) : (setPhase p s).fsm = s.fsm := rfl
@[simp] theorem setPhase_phase (p : Phase) (s : State) : (setPhase p s).phase = p := rfl
@[simp] theorem setPhase_curOp (p : Phase) (s : State) : (setPhase p s).curOp = s.curOp := rfl
@[simp] theorem setPhase_meas (p : Phase) (s : State) : (setPhase p s).meas = s.meas := rfl
@[simp] theorem setPhase_pending (p : Phase) (s : State) : (setPhase p s).pending = s.pending := rfl
@[simp] theorem setPhase_hours (p : Phase) (s : State) : (setPhase p s).hours = s.hours := rfl
@[simp] theorem setPhase_code (p : Phase) (s : State) : (setPhase p s).code = s.code := rfl
@[simp] theorem setPhase_wrOk (p : Phase) (s : State) : (setPhase p s).wrOk = s.wrOk := rfl
@[simp] theorem setPhase_xreq (p : Phase) (s : State) : (setPhase p s).xreq = s.xreq := rfl
@[simp] theorem setPhase_settle (p : Phase) (s : State) : (setPhase p s).settle = s.settle := rfl
@[simp] theorem setPhase_resp (p : Phase) (s : State) : (setPhase p s).resp = s.resp := rfl
@[simp] theorem setPhase_hostErr (p : Phase) (s : State) : (setPhase p s).hostErr = s.hostErr := rfl
@[simp] theorem setPhase_cmd (p : Phase) (s : State) : (setPhase p s).cmd = s.cmd := rfl
@[simp] theorem setPhase_cfg (p : Phase) (s : State) : (setPhase p s).cfg = s.cfg := rfl
@[simp] theorem setPhase_decOut (p : Phase) (s : State) : (setPhase p s).decOut = s.decOut := rfl
@[simp] theorem setPhase_sched (p : Phase) (s : State) : (setPhase p s).sched = s.sched := rfl
@[simp] theorem setPhase_draws (p : Phase) (s : State) : (setPhase p s).draws = s.draws := rfl
@[simp] theorem setPhase_trace (p : Phase) (s : State) : (setPhase p s).trace = s.trace := rfl

/-! ### setResp -/

@[simp] theorem setResp_fsm (r : Resp) (s : State) : (setResp r s).fsm = s.fsm := rfl
@[simp] theorem setResp_phase (r : Resp) (s : State) : (setResp r s).phase = s.phase := rfl
@[simp] theorem setResp_curOp (r : Resp) (s : State) : (setResp r s).curOp = s.curOp := rfl
@[simp] theorem setResp_meas (r : Resp) (s : State) : (setResp r s).meas = s.meas := rfl
@[simp] theorem setResp_pending (r : Resp) (s : State) : (setResp r s).pending = s.pending := rfl
@[simp] theorem setResp_hours (r : Resp) (s : State) : (setResp r s).hours = s.hours := rfl
@[simp] theorem setResp_code (r : Resp) (s : State) : (setResp r s).code = s.code := rfl
@[simp] theorem setResp_wrOk (r : Resp) (s : State) : (setResp r s).wrOk = s.wrOk := rfl
@[simp] theorem setResp_xreq (r : Resp) (s : State) : (setResp r s).xreq = s.xreq := rfl
@[simp] theorem setResp_settle (r : Resp) (s : State) : (setResp r s).settle = s.settle := rfl
@[simp] theorem setResp_resp (r : Resp) (s : State) : (setResp r s).resp = r := rfl
@[simp] theorem setResp_hostErr (r : Resp) (s : State) : (setResp r s).hostErr = s.hostErr := rfl
@[simp] theorem setResp_cmd (r : Resp) (s : State) : (setResp r s).cmd = s.cmd := rfl
@[simp] theorem setResp_cfg (r : Resp) (s : State) : (setResp r s).cfg = s.cfg := rfl
@[simp] theorem setResp_decOut (r : Resp) (s : State) : (setResp r s).decOut = s.decOut := rfl
@[simp] theorem setResp_sched (r : Resp) (s : State) : (setResp r s).sched = s.sched := rfl
@[simp] theorem setResp_draws (r : Resp) (s : State) : (setResp r s).draws = s.draws := rfl
@[simp] theorem setResp_trace (r : Resp) (s : State) : (setResp r s).trace = s.trace := rfl

/-! ### setPending -/

@[simp] theorem setPending_fsm (p : BitVec 4) (s : State) : (setPending p s).fsm = s.fsm := rfl
@[simp] theorem setPending_phase (p : BitVec 4) (s : State) :
    (setPending p s).phase = s.phase := rfl
@[simp] theorem setPending_curOp (p : BitVec 4) (s : State) :
    (setPending p s).curOp = s.curOp := rfl
@[simp] theorem setPending_meas (p : BitVec 4) (s : State) : (setPending p s).meas = s.meas := rfl
@[simp] theorem setPending_pending (p : BitVec 4) (s : State) : (setPending p s).pending = p := rfl
@[simp] theorem setPending_hours (p : BitVec 4) (s : State) :
    (setPending p s).hours = s.hours := rfl
@[simp] theorem setPending_code (p : BitVec 4) (s : State) : (setPending p s).code = s.code := rfl
@[simp] theorem setPending_wrOk (p : BitVec 4) (s : State) : (setPending p s).wrOk = s.wrOk := rfl
@[simp] theorem setPending_xreq (p : BitVec 4) (s : State) : (setPending p s).xreq = s.xreq := rfl
@[simp] theorem setPending_settle (p : BitVec 4) (s : State) :
    (setPending p s).settle = s.settle := rfl
@[simp] theorem setPending_resp (p : BitVec 4) (s : State) : (setPending p s).resp = s.resp := rfl
@[simp] theorem setPending_hostErr (p : BitVec 4) (s : State) :
    (setPending p s).hostErr = s.hostErr := rfl
@[simp] theorem setPending_cmd (p : BitVec 4) (s : State) : (setPending p s).cmd = s.cmd := rfl
@[simp] theorem setPending_cfg (p : BitVec 4) (s : State) : (setPending p s).cfg = s.cfg := rfl
@[simp] theorem setPending_decOut (p : BitVec 4) (s : State) :
    (setPending p s).decOut = s.decOut := rfl
@[simp] theorem setPending_sched (p : BitVec 4) (s : State) :
    (setPending p s).sched = s.sched := rfl
@[simp] theorem setPending_draws (p : BitVec 4) (s : State) :
    (setPending p s).draws = s.draws := rfl
@[simp] theorem setPending_trace (p : BitVec 4) (s : State) :
    (setPending p s).trace = s.trace := rfl

/-! ### setMeas -/

@[simp] theorem setMeas_fsm (k : Kind) (s : State) : (setMeas k s).fsm = s.fsm := rfl
@[simp] theorem setMeas_phase (k : Kind) (s : State) : (setMeas k s).phase = s.phase := rfl
@[simp] theorem setMeas_curOp (k : Kind) (s : State) : (setMeas k s).curOp = s.curOp := rfl
@[simp] theorem setMeas_meas (k : Kind) (s : State) : (setMeas k s).meas = k := rfl
@[simp] theorem setMeas_pending (k : Kind) (s : State) : (setMeas k s).pending = s.pending := rfl
@[simp] theorem setMeas_hours (k : Kind) (s : State) : (setMeas k s).hours = s.hours := rfl
@[simp] theorem setMeas_code (k : Kind) (s : State) : (setMeas k s).code = s.code := rfl
@[simp] theorem setMeas_wrOk (k : Kind) (s : State) : (setMeas k s).wrOk = s.wrOk := rfl
@[simp] theorem setMeas_xreq (k : Kind) (s : State) : (setMeas k s).xreq = s.xreq := rfl
@[simp] theorem setMeas_settle (k : Kind) (s : State) : (setMeas k s).settle = s.settle := rfl
@[simp] theorem setMeas_resp (k : Kind) (s : State) : (setMeas k s).resp = s.resp := rfl
@[simp] theorem setMeas_hostErr (k : Kind) (s : State) : (setMeas k s).hostErr = s.hostErr := rfl
@[simp] theorem setMeas_cmd (k : Kind) (s : State) : (setMeas k s).cmd = s.cmd := rfl
@[simp] theorem setMeas_cfg (k : Kind) (s : State) : (setMeas k s).cfg = s.cfg := rfl
@[simp] theorem setMeas_decOut (k : Kind) (s : State) : (setMeas k s).decOut = s.decOut := rfl
@[simp] theorem setMeas_sched (k : Kind) (s : State) : (setMeas k s).sched = s.sched := rfl
@[simp] theorem setMeas_draws (k : Kind) (s : State) : (setMeas k s).draws = s.draws := rfl
@[simp] theorem setMeas_trace (k : Kind) (s : State) : (setMeas k s).trace = s.trace := rfl

/-! ### setDraws -/

@[simp] theorem setDraws_fsm (n : Nat) (s : State) : (setDraws n s).fsm = s.fsm := rfl
@[simp] theorem setDraws_phase (n : Nat) (s : State) : (setDraws n s).phase = s.phase := rfl
@[simp] theorem setDraws_curOp (n : Nat) (s : State) : (setDraws n s).curOp = s.curOp := rfl
@[simp] theorem setDraws_meas (n : Nat) (s : State) : (setDraws n s).meas = s.meas := rfl
@[simp] theorem setDraws_pending (n : Nat) (s : State) : (setDraws n s).pending = s.pending := rfl
@[simp] theorem setDraws_hours (n : Nat) (s : State) : (setDraws n s).hours = s.hours := rfl
@[simp] theorem setDraws_code (n : Nat) (s : State) : (setDraws n s).code = s.code := rfl
@[simp] theorem setDraws_wrOk (n : Nat) (s : State) : (setDraws n s).wrOk = s.wrOk := rfl
@[simp] theorem setDraws_xreq (n : Nat) (s : State) : (setDraws n s).xreq = s.xreq := rfl
@[simp] theorem setDraws_settle (n : Nat) (s : State) : (setDraws n s).settle = s.settle := rfl
@[simp] theorem setDraws_resp (n : Nat) (s : State) : (setDraws n s).resp = s.resp := rfl
@[simp] theorem setDraws_hostErr (n : Nat) (s : State) : (setDraws n s).hostErr = s.hostErr := rfl
@[simp] theorem setDraws_cmd (n : Nat) (s : State) : (setDraws n s).cmd = s.cmd := rfl
@[simp] theorem setDraws_cfg (n : Nat) (s : State) : (setDraws n s).cfg = s.cfg := rfl
@[simp] theorem setDraws_decOut (n : Nat) (s : State) : (setDraws n s).decOut = s.decOut := rfl
@[simp] theorem setDraws_sched (n : Nat) (s : State) : (setDraws n s).sched = s.sched := rfl
@[simp] theorem setDraws_draws (n : Nat) (s : State) : (setDraws n s).draws = n := rfl
@[simp] theorem setDraws_trace (n : Nat) (s : State) : (setDraws n s).trace = s.trace := rfl

/-! ### setHours -/

@[simp] theorem setHours_fsm (h : Byte) (s : State) : (setHours h s).fsm = s.fsm := rfl
@[simp] theorem setHours_phase (h : Byte) (s : State) : (setHours h s).phase = s.phase := rfl
@[simp] theorem setHours_curOp (h : Byte) (s : State) : (setHours h s).curOp = s.curOp := rfl
@[simp] theorem setHours_meas (h : Byte) (s : State) : (setHours h s).meas = s.meas := rfl
@[simp] theorem setHours_pending (h : Byte) (s : State) : (setHours h s).pending = s.pending := rfl
@[simp] theorem setHours_hours (h : Byte) (s : State) : (setHours h s).hours = h := rfl
@[simp] theorem setHours_code (h : Byte) (s : State) : (setHours h s).code = s.code := rfl
@[simp] theorem setHours_wrOk (h : Byte) (s : State) : (setHours h s).wrOk = s.wrOk := rfl
@[simp] theorem setHours_xreq (h : Byte) (s : State) : (setHours h s).xreq = s.xreq := rfl
@[simp] theorem setHours_settle (h : Byte) (s : State) : (setHours h s).settle = s.settle := rfl
@[simp] theorem setHours_resp (h : Byte) (s : State) : (setHours h s).resp = s.resp := rfl
@[simp] theorem setHours_hostErr (h : Byte) (s : State) : (setHours h s).hostErr = s.hostErr := rfl
@[simp] theorem setHours_cmd (h : Byte) (s : State) : (setHours h s).cmd = s.cmd := rfl
@[simp] theorem setHours_cfg (h : Byte) (s : State) : (setHours h s).cfg = s.cfg := rfl
@[simp] theorem setHours_decOut (h : Byte) (s : State) : (setHours h s).decOut = s.decOut := rfl
@[simp] theorem setHours_sched (h : Byte) (s : State) : (setHours h s).sched = s.sched := rfl
@[simp] theorem setHours_draws (h : Byte) (s : State) : (setHours h s).draws = s.draws := rfl
@[simp] theorem setHours_trace (h : Byte) (s : State) : (setHours h s).trace = s.trace := rfl

/-! ### setCode -/

@[simp] theorem setCode_fsm (c : Half) (s : State) : (setCode c s).fsm = s.fsm := rfl
@[simp] theorem setCode_phase (c : Half) (s : State) : (setCode c s).phase = s.phase := rfl
@[simp] theorem setCode_curOp (c : Half) (s : State) : (setCode c s).curOp = s.curOp := rfl
@[simp] theorem setCode_meas (c : Half) (s : State) : (setCode c s).meas = s.meas := rfl
@[simp] theorem setCode_pending (c : Half) (s : State) : (setCode c s).pending = s.pending := rfl
@[simp] theorem setCode_hours (c : Half) (s : State) : (setCode c s).hours = s.hours := rfl
@[simp] theorem setCode_code (c : Half) (s : State) : (setCode c s).code = c := rfl
@[simp] theorem setCode_wrOk (c : Half) (s : State) : (setCode c s).wrOk = s.wrOk := rfl
@[simp] theorem setCode_xreq (c : Half) (s : State) : (setCode c s).xreq = s.xreq := rfl
@[simp] theorem setCode_settle (c : Half) (s : State) : (setCode c s).settle = s.settle := rfl
@[simp] theorem setCode_resp (c : Half) (s : State) : (setCode c s).resp = s.resp := rfl
@[simp] theorem setCode_hostErr (c : Half) (s : State) : (setCode c s).hostErr = s.hostErr := rfl
@[simp] theorem setCode_cmd (c : Half) (s : State) : (setCode c s).cmd = s.cmd := rfl
@[simp] theorem setCode_cfg (c : Half) (s : State) : (setCode c s).cfg = s.cfg := rfl
@[simp] theorem setCode_decOut (c : Half) (s : State) : (setCode c s).decOut = s.decOut := rfl
@[simp] theorem setCode_sched (c : Half) (s : State) : (setCode c s).sched = s.sched := rfl
@[simp] theorem setCode_draws (c : Half) (s : State) : (setCode c s).draws = s.draws := rfl
@[simp] theorem setCode_trace (c : Half) (s : State) : (setCode c s).trace = s.trace := rfl

/-! ### setStatus -/

@[simp] theorem setStatus_fsm (st : Status) (s : State) : (setStatus st s).fsm = s.fsm := rfl
@[simp] theorem setStatus_phase (st : Status) (s : State) : (setStatus st s).phase = s.phase := rfl
@[simp] theorem setStatus_curOp (st : Status) (s : State) : (setStatus st s).curOp = s.curOp := rfl
@[simp] theorem setStatus_meas (st : Status) (s : State) : (setStatus st s).meas = s.meas := rfl
@[simp] theorem setStatus_pending (st : Status) (s : State) :
    (setStatus st s).pending = s.pending := rfl
@[simp] theorem setStatus_hours (st : Status) (s : State) : (setStatus st s).hours = s.hours := rfl
@[simp] theorem setStatus_code (st : Status) (s : State) : (setStatus st s).code = s.code := rfl
@[simp] theorem setStatus_wrOk (st : Status) (s : State) : (setStatus st s).wrOk = s.wrOk := rfl
@[simp] theorem setStatus_xreq (st : Status) (s : State) : (setStatus st s).xreq = s.xreq := rfl
@[simp] theorem setStatus_settle (st : Status) (s : State) :
    (setStatus st s).settle = s.settle := rfl
@[simp] theorem setStatus_resp (st : Status) (s : State) :
    (setStatus st s).resp = { s.resp with rw0 := setRw0Status s.resp.rw0 st } := rfl
@[simp] theorem setStatus_hostErr (st : Status) (s : State) :
    (setStatus st s).hostErr = s.hostErr := rfl
@[simp] theorem setStatus_cmd (st : Status) (s : State) : (setStatus st s).cmd = s.cmd := rfl
@[simp] theorem setStatus_cfg (st : Status) (s : State) : (setStatus st s).cfg = s.cfg := rfl
@[simp] theorem setStatus_decOut (st : Status) (s : State) :
    (setStatus st s).decOut = s.decOut := rfl
@[simp] theorem setStatus_sched (st : Status) (s : State) : (setStatus st s).sched = s.sched := rfl
@[simp] theorem setStatus_draws (st : Status) (s : State) : (setStatus st s).draws = s.draws := rfl
@[simp] theorem setStatus_trace (st : Status) (s : State) : (setStatus st s).trace = s.trace := rfl

/-! ### setMst -/

@[simp] theorem setMst_fsm (k : Kind) (m : Mst) (s : State) : (setMst k m s).fsm = s.fsm := rfl
@[simp] theorem setMst_phase (k : Kind) (m : Mst) (s : State) :
    (setMst k m s).phase = s.phase := rfl
@[simp] theorem setMst_curOp (k : Kind) (m : Mst) (s : State) :
    (setMst k m s).curOp = s.curOp := rfl
@[simp] theorem setMst_meas (k : Kind) (m : Mst) (s : State) : (setMst k m s).meas = s.meas := rfl
@[simp] theorem setMst_pending (k : Kind) (m : Mst) (s : State) :
    (setMst k m s).pending = s.pending := rfl
@[simp] theorem setMst_hours (k : Kind) (m : Mst) (s : State) :
    (setMst k m s).hours = s.hours := rfl
@[simp] theorem setMst_code (k : Kind) (m : Mst) (s : State) : (setMst k m s).code = s.code := rfl
@[simp] theorem setMst_wrOk (k : Kind) (m : Mst) (s : State) : (setMst k m s).wrOk = s.wrOk := rfl
@[simp] theorem setMst_xreq (k : Kind) (m : Mst) (s : State) : (setMst k m s).xreq = s.xreq := rfl
@[simp] theorem setMst_settle (k : Kind) (m : Mst) (s : State) :
    (setMst k m s).settle = s.settle := rfl
@[simp] theorem setMst_resp (k : Kind) (m : Mst) (s : State) :
    (setMst k m s).resp = { s.resp with rw0 := setRw0Mst s.resp.rw0 k m } := rfl
@[simp] theorem setMst_hostErr (k : Kind) (m : Mst) (s : State) :
    (setMst k m s).hostErr = s.hostErr := rfl
@[simp] theorem setMst_cmd (k : Kind) (m : Mst) (s : State) : (setMst k m s).cmd = s.cmd := rfl
@[simp] theorem setMst_cfg (k : Kind) (m : Mst) (s : State) : (setMst k m s).cfg = s.cfg := rfl
@[simp] theorem setMst_decOut (k : Kind) (m : Mst) (s : State) :
    (setMst k m s).decOut = s.decOut := rfl
@[simp] theorem setMst_sched (k : Kind) (m : Mst) (s : State) :
    (setMst k m s).sched = s.sched := rfl
@[simp] theorem setMst_draws (k : Kind) (m : Mst) (s : State) :
    (setMst k m s).draws = s.draws := rfl
@[simp] theorem setMst_trace (k : Kind) (m : Mst) (s : State) :
    (setMst k m s).trace = s.trace := rfl

/-! ### setData -/

@[simp] theorem setData_fsm (k : Kind) (v : Word) (s : State) : (setData k v s).fsm = s.fsm := rfl
@[simp] theorem setData_phase (k : Kind) (v : Word) (s : State) :
    (setData k v s).phase = s.phase := rfl
@[simp] theorem setData_curOp (k : Kind) (v : Word) (s : State) :
    (setData k v s).curOp = s.curOp := rfl
@[simp] theorem setData_meas (k : Kind) (v : Word) (s : State) :
    (setData k v s).meas = s.meas := rfl
@[simp] theorem setData_pending (k : Kind) (v : Word) (s : State) :
    (setData k v s).pending = s.pending := rfl
@[simp] theorem setData_hours (k : Kind) (v : Word) (s : State) :
    (setData k v s).hours = s.hours := rfl
@[simp] theorem setData_code (k : Kind) (v : Word) (s : State) :
    (setData k v s).code = s.code := rfl
@[simp] theorem setData_wrOk (k : Kind) (v : Word) (s : State) :
    (setData k v s).wrOk = s.wrOk := rfl
@[simp] theorem setData_xreq (k : Kind) (v : Word) (s : State) :
    (setData k v s).xreq = s.xreq := rfl
@[simp] theorem setData_settle (k : Kind) (v : Word) (s : State) :
    (setData k v s).settle = s.settle := rfl
@[simp] theorem setData_resp (k : Kind) (v : Word) (s : State) :
    (setData k v s).resp = setRespData s.resp k v := rfl
@[simp] theorem setData_hostErr (k : Kind) (v : Word) (s : State) :
    (setData k v s).hostErr = s.hostErr := rfl
@[simp] theorem setData_cmd (k : Kind) (v : Word) (s : State) : (setData k v s).cmd = s.cmd := rfl
@[simp] theorem setData_cfg (k : Kind) (v : Word) (s : State) : (setData k v s).cfg = s.cfg := rfl
@[simp] theorem setData_decOut (k : Kind) (v : Word) (s : State) :
    (setData k v s).decOut = s.decOut := rfl
@[simp] theorem setData_sched (k : Kind) (v : Word) (s : State) :
    (setData k v s).sched = s.sched := rfl
@[simp] theorem setData_draws (k : Kind) (v : Word) (s : State) :
    (setData k v s).draws = s.draws := rfl
@[simp] theorem setData_trace (k : Kind) (v : Word) (s : State) :
    (setData k v s).trace = s.trace := rfl

/-! ### setWrOk -/

@[simp] theorem setWrOk_fsm (b : Bool) (s : State) : (setWrOk b s).fsm = s.fsm := rfl
@[simp] theorem setWrOk_phase (b : Bool) (s : State) : (setWrOk b s).phase = s.phase := rfl
@[simp] theorem setWrOk_curOp (b : Bool) (s : State) : (setWrOk b s).curOp = s.curOp := rfl
@[simp] theorem setWrOk_meas (b : Bool) (s : State) : (setWrOk b s).meas = s.meas := rfl
@[simp] theorem setWrOk_pending (b : Bool) (s : State) : (setWrOk b s).pending = s.pending := rfl
@[simp] theorem setWrOk_hours (b : Bool) (s : State) : (setWrOk b s).hours = s.hours := rfl
@[simp] theorem setWrOk_code (b : Bool) (s : State) : (setWrOk b s).code = s.code := rfl
@[simp] theorem setWrOk_wrOk (b : Bool) (s : State) : (setWrOk b s).wrOk = b := rfl
@[simp] theorem setWrOk_xreq (b : Bool) (s : State) : (setWrOk b s).xreq = s.xreq := rfl
@[simp] theorem setWrOk_settle (b : Bool) (s : State) : (setWrOk b s).settle = s.settle := rfl
@[simp] theorem setWrOk_resp (b : Bool) (s : State) : (setWrOk b s).resp = s.resp := rfl
@[simp] theorem setWrOk_hostErr (b : Bool) (s : State) : (setWrOk b s).hostErr = s.hostErr := rfl
@[simp] theorem setWrOk_cmd (b : Bool) (s : State) : (setWrOk b s).cmd = s.cmd := rfl
@[simp] theorem setWrOk_cfg (b : Bool) (s : State) : (setWrOk b s).cfg = s.cfg := rfl
@[simp] theorem setWrOk_decOut (b : Bool) (s : State) : (setWrOk b s).decOut = s.decOut := rfl
@[simp] theorem setWrOk_sched (b : Bool) (s : State) : (setWrOk b s).sched = s.sched := rfl
@[simp] theorem setWrOk_draws (b : Bool) (s : State) : (setWrOk b s).draws = s.draws := rfl
@[simp] theorem setWrOk_trace (b : Bool) (s : State) : (setWrOk b s).trace = s.trace := rfl

/-! ### takeCmd -/

@[simp] theorem takeCmd_fsm (w : Word) (s : State) : (takeCmd w s).fsm = s.fsm := rfl
@[simp] theorem takeCmd_phase (w : Word) (s : State) : (takeCmd w s).phase = s.phase := rfl
@[simp] theorem takeCmd_curOp (w : Word) (s : State) : (takeCmd w s).curOp = s.curOp := rfl
@[simp] theorem takeCmd_meas (w : Word) (s : State) : (takeCmd w s).meas = s.meas := rfl
@[simp] theorem takeCmd_pending (w : Word) (s : State) : (takeCmd w s).pending = s.pending := rfl
@[simp] theorem takeCmd_hours (w : Word) (s : State) : (takeCmd w s).hours = s.hours := rfl
@[simp] theorem takeCmd_code (w : Word) (s : State) : (takeCmd w s).code = s.code := rfl
@[simp] theorem takeCmd_wrOk (w : Word) (s : State) : (takeCmd w s).wrOk = s.wrOk := rfl
@[simp] theorem takeCmd_xreq (w : Word) (s : State) : (takeCmd w s).xreq = s.xreq := rfl
@[simp] theorem takeCmd_settle (w : Word) (s : State) : (takeCmd w s).settle = s.settle := rfl
@[simp] theorem takeCmd_resp (w : Word) (s : State) : (takeCmd w s).resp = s.resp := rfl
@[simp] theorem takeCmd_hostErr (w : Word) (s : State) : (takeCmd w s).hostErr = s.hostErr := rfl
@[simp] theorem takeCmd_cmd (w : Word) (s : State) : (takeCmd w s).cmd = none := rfl
@[simp] theorem takeCmd_cfg (w : Word) (s : State) : (takeCmd w s).cfg = s.cfg := rfl
@[simp] theorem takeCmd_decOut (w : Word) (s : State) : (takeCmd w s).decOut = s.decOut := rfl
@[simp] theorem takeCmd_sched (w : Word) (s : State) : (takeCmd w s).sched = s.sched := rfl
@[simp] theorem takeCmd_draws (w : Word) (s : State) : (takeCmd w s).draws = s.draws := rfl
@[simp] theorem takeCmd_trace (w : Word) (s : State) :
    (takeCmd w s).trace = .cmd w :: s.trace := rfl

/-! ### accept -/

@[simp] theorem accept_fsm (w : Word) (op : BitVec 4) (p : Phase) (s : State) :
    (accept w op p s).fsm = .busy := rfl
@[simp] theorem accept_phase (w : Word) (op : BitVec 4) (p : Phase) (s : State) :
    (accept w op p s).phase = p := rfl
@[simp] theorem accept_curOp (w : Word) (op : BitVec 4) (p : Phase) (s : State) :
    (accept w op p s).curOp = op := rfl
@[simp] theorem accept_meas (w : Word) (op : BitVec 4) (p : Phase) (s : State) :
    (accept w op p s).meas = s.meas := rfl
@[simp] theorem accept_pending (w : Word) (op : BitVec 4) (p : Phase) (s : State) :
    (accept w op p s).pending = s.pending := rfl
@[simp] theorem accept_hours (w : Word) (op : BitVec 4) (p : Phase) (s : State) :
    (accept w op p s).hours = s.hours := rfl
@[simp] theorem accept_code (w : Word) (op : BitVec 4) (p : Phase) (s : State) :
    (accept w op p s).code = s.code := rfl
@[simp] theorem accept_wrOk (w : Word) (op : BitVec 4) (p : Phase) (s : State) :
    (accept w op p s).wrOk = s.wrOk := rfl
@[simp] theorem accept_xreq (w : Word) (op : BitVec 4) (p : Phase) (s : State) :
    (accept w op p s).xreq = s.xreq := rfl
@[simp] theorem accept_settle (w : Word) (op : BitVec 4) (p : Phase) (s : State) :
    (accept w op p s).settle = s.settle := rfl
@[simp] theorem accept_resp (w : Word) (op : BitVec 4) (p : Phase) (s : State) :
    (accept w op p s).resp = { Resp.zero with rw0 := rw0Accepted op } := rfl
@[simp] theorem accept_hostErr (w : Word) (op : BitVec 4) (p : Phase) (s : State) :
    (accept w op p s).hostErr = s.hostErr := rfl
@[simp] theorem accept_cmd (w : Word) (op : BitVec 4) (p : Phase) (s : State) :
    (accept w op p s).cmd = none := rfl
@[simp] theorem accept_cfg (w : Word) (op : BitVec 4) (p : Phase) (s : State) :
    (accept w op p s).cfg = s.cfg := rfl
@[simp] theorem accept_decOut (w : Word) (op : BitVec 4) (p : Phase) (s : State) :
    (accept w op p s).decOut = s.decOut := rfl
@[simp] theorem accept_sched (w : Word) (op : BitVec 4) (p : Phase) (s : State) :
    (accept w op p s).sched = s.sched := rfl
@[simp] theorem accept_draws (w : Word) (op : BitVec 4) (p : Phase) (s : State) :
    (accept w op p s).draws = s.draws := rfl
@[simp] theorem accept_trace (w : Word) (op : BitVec 4) (p : Phase) (s : State) :
    (accept w op p s).trace = .cmd w :: s.trace := rfl

/-! ### reject -/

@[simp] theorem reject_fsm (st : Status) (w : Word) (s : State) : (reject st w s).fsm = s.fsm := rfl
@[simp] theorem reject_phase (st : Status) (w : Word) (s : State) :
    (reject st w s).phase = s.phase := rfl
@[simp] theorem reject_curOp (st : Status) (w : Word) (s : State) :
    (reject st w s).curOp = s.curOp := rfl
@[simp] theorem reject_meas (st : Status) (w : Word) (s : State) :
    (reject st w s).meas = s.meas := rfl
@[simp] theorem reject_pending (st : Status) (w : Word) (s : State) :
    (reject st w s).pending = s.pending := rfl
@[simp] theorem reject_hours (st : Status) (w : Word) (s : State) :
    (reject st w s).hours = s.hours := rfl
@[simp] theorem reject_code (st : Status) (w : Word) (s : State) :
    (reject st w s).code = s.code := rfl
@[simp] theorem reject_wrOk (st : Status) (w : Word) (s : State) :
    (reject st w s).wrOk = s.wrOk := rfl
@[simp] theorem reject_xreq (st : Status) (w : Word) (s : State) :
    (reject st w s).xreq = s.xreq := rfl
@[simp] theorem reject_settle (st : Status) (w : Word) (s : State) :
    (reject st w s).settle = s.settle := rfl
@[simp] theorem reject_resp (st : Status) (w : Word) (s : State) :
    (reject st w s).resp = s.resp := rfl
@[simp] theorem reject_hostErr (st : Status) (w : Word) (s : State) :
    (reject st w s).hostErr = true := rfl
@[simp] theorem reject_cmd (st : Status) (w : Word) (s : State) : (reject st w s).cmd = none := rfl
@[simp] theorem reject_cfg (st : Status) (w : Word) (s : State) : (reject st w s).cfg = s.cfg := rfl
@[simp] theorem reject_decOut (st : Status) (w : Word) (s : State) :
    (reject st w s).decOut = s.decOut := rfl
@[simp] theorem reject_sched (st : Status) (w : Word) (s : State) :
    (reject st w s).sched = s.sched := rfl
@[simp] theorem reject_draws (st : Status) (w : Word) (s : State) :
    (reject st w s).draws = s.draws := rfl
@[simp] theorem reject_trace (st : Status) (w : Word) (s : State) :
    (reject st w s).trace = .resp { Resp.zero with rw0 := rw0Rejected st (opField w) } :: .cmd w :: s.trace := rfl

/-! ### finish -/

@[simp] theorem finish_fsm (t : FsmState) (s : State) : (finish t s).fsm = t := rfl
@[simp] theorem finish_phase (t : FsmState) (s : State) : (finish t s).phase = .none := rfl
@[simp] theorem finish_curOp (t : FsmState) (s : State) : (finish t s).curOp = s.curOp := rfl
@[simp] theorem finish_meas (t : FsmState) (s : State) : (finish t s).meas = s.meas := rfl
@[simp] theorem finish_pending (t : FsmState) (s : State) : (finish t s).pending = 0 := rfl
@[simp] theorem finish_hours (t : FsmState) (s : State) : (finish t s).hours = s.hours := rfl
@[simp] theorem finish_code (t : FsmState) (s : State) : (finish t s).code = s.code := rfl
@[simp] theorem finish_wrOk (t : FsmState) (s : State) : (finish t s).wrOk = s.wrOk := rfl
@[simp] theorem finish_xreq (t : FsmState) (s : State) : (finish t s).xreq = s.xreq := rfl
@[simp] theorem finish_settle (t : FsmState) (s : State) : (finish t s).settle = s.settle := rfl
@[simp] theorem finish_resp (t : FsmState) (s : State) : (finish t s).resp = s.resp := rfl
@[simp] theorem finish_hostErr (t : FsmState) (s : State) : (finish t s).hostErr = s.hostErr := rfl
@[simp] theorem finish_cmd (t : FsmState) (s : State) : (finish t s).cmd = s.cmd := rfl
@[simp] theorem finish_cfg (t : FsmState) (s : State) : (finish t s).cfg = s.cfg := rfl
@[simp] theorem finish_decOut (t : FsmState) (s : State) : (finish t s).decOut = s.decOut := rfl
@[simp] theorem finish_sched (t : FsmState) (s : State) : (finish t s).sched = s.sched := rfl
@[simp] theorem finish_draws (t : FsmState) (s : State) : (finish t s).draws = s.draws := rfl
@[simp] theorem finish_trace (t : FsmState) (s : State) :
    (finish t s).trace = .resp s.resp :: s.trace := rfl

/-! ### driveOutputs -/

@[simp] theorem driveOutputs_fsm (o : DecOut) (s : State) : (driveOutputs o s).fsm = s.fsm := rfl
@[simp] theorem driveOutputs_phase (o : DecOut) (s : State) :
    (driveOutputs o s).phase = s.phase := rfl
@[simp] theorem driveOutputs_curOp (o : DecOut) (s : State) :
    (driveOutputs o s).curOp = s.curOp := rfl
@[simp] theorem driveOutputs_meas (o : DecOut) (s : State) : (driveOutputs o s).meas = s.meas := rfl
@[simp] theorem driveOutputs_pending (o : DecOut) (s : State) :
    (driveOutputs o s).pending = s.pending := rfl
@[simp] theorem driveOutputs_hours (o : DecOut) (s : State) :
    (driveOutputs o s).hours = s.hours := rfl
@[simp] theorem driveOutputs_code (o : DecOut) (s : State) : (driveOutputs o s).code = s.code := rfl
@[simp] theorem driveOutputs_wrOk (o : DecOut) (s : State) : (driveOutputs o s).wrOk = s.wrOk := rfl
@[simp] theorem driveOutputs_xreq (o : DecOut) (s : State) : (driveOutputs o s).xreq = s.xreq := rfl
@[simp] theorem driveOutputs_settle (o : DecOut) (s : State) :
    (driveOutputs o s).settle = s.settle := rfl
@[simp] theorem driveOutputs_resp (o : DecOut) (s : State) : (driveOutputs o s).resp = s.resp := rfl
@[simp] theorem driveOutputs_hostErr (o : DecOut) (s : State) :
    (driveOutputs o s).hostErr = s.hostErr := rfl
@[simp] theorem driveOutputs_cmd (o : DecOut) (s : State) : (driveOutputs o s).cmd = s.cmd := rfl
@[simp] theorem driveOutputs_cfg (o : DecOut) (s : State) : (driveOutputs o s).cfg = s.cfg := rfl
@[simp] theorem driveOutputs_decOut (o : DecOut) (s : State) : (driveOutputs o s).decOut = o := rfl
@[simp] theorem driveOutputs_sched (o : DecOut) (s : State) :
    (driveOutputs o s).sched = s.sched := rfl
@[simp] theorem driveOutputs_draws (o : DecOut) (s : State) :
    (driveOutputs o s).draws = s.draws := rfl
@[simp] theorem driveOutputs_trace (o : DecOut) (s : State) :
    (driveOutputs o s).trace = s.trace := rfl

/-! ### setIdentity -/

@[simp] theorem setIdentity_fsm (p : BitVec 20) (v : Half) (s : State) :
    (setIdentity p v s).fsm = s.fsm := rfl
@[simp] theorem setIdentity_phase (p : BitVec 20) (v : Half) (s : State) :
    (setIdentity p v s).phase = s.phase := rfl
@[simp] theorem setIdentity_curOp (p : BitVec 20) (v : Half) (s : State) :
    (setIdentity p v s).curOp = s.curOp := rfl
@[simp] theorem setIdentity_meas (p : BitVec 20) (v : Half) (s : State) :
    (setIdentity p v s).meas = s.meas := rfl
@[simp] theorem setIdentity_pending (p : BitVec 20) (v : Half) (s : State) :
    (setIdentity p v s).pending = s.pending := rfl
@[simp] theorem setIdentity_hours (p : BitVec 20) (v : Half) (s : State) :
    (setIdentity p v s).hours = s.hours := rfl
@[simp] theorem setIdentity_code (p : BitVec 20) (v : Half) (s : State) :
    (setIdentity p v s).code = s.code := rfl
@[simp] theorem setIdentity_wrOk (p : BitVec 20) (v : Half) (s : State) :
    (setIdentity p v s).wrOk = s.wrOk := rfl
@[simp] theorem setIdentity_xreq (p : BitVec 20) (v : Half) (s : State) :
    (setIdentity p v s).xreq = s.xreq := rfl
@[simp] theorem setIdentity_settle (p : BitVec 20) (v : Half) (s : State) :
    (setIdentity p v s).settle = s.settle := rfl
@[simp] theorem setIdentity_resp (p : BitVec 20) (v : Half) (s : State) :
    (setIdentity p v s).resp = { s.resp with rw0 := setRw0IdValid s.resp.rw0, rw2 := p.setWidth 32, rw3 := v.setWidth 32 } := rfl
@[simp] theorem setIdentity_hostErr (p : BitVec 20) (v : Half) (s : State) :
    (setIdentity p v s).hostErr = s.hostErr := rfl
@[simp] theorem setIdentity_cmd (p : BitVec 20) (v : Half) (s : State) :
    (setIdentity p v s).cmd = s.cmd := rfl
@[simp] theorem setIdentity_cfg (p : BitVec 20) (v : Half) (s : State) :
    (setIdentity p v s).cfg = s.cfg := rfl
@[simp] theorem setIdentity_decOut (p : BitVec 20) (v : Half) (s : State) :
    (setIdentity p v s).decOut = s.decOut := rfl
@[simp] theorem setIdentity_sched (p : BitVec 20) (v : Half) (s : State) :
    (setIdentity p v s).sched = s.sched := rfl
@[simp] theorem setIdentity_draws (p : BitVec 20) (v : Half) (s : State) :
    (setIdentity p v s).draws = s.draws := rfl
@[simp] theorem setIdentity_trace (p : BitVec 20) (v : Half) (s : State) :
    (setIdentity p v s).trace = s.trace := rfl

/-! ### setVersion -/

@[simp] theorem setVersion_fsm (v : Half) (s : State) : (setVersion v s).fsm = s.fsm := rfl
@[simp] theorem setVersion_phase (v : Half) (s : State) : (setVersion v s).phase = s.phase := rfl
@[simp] theorem setVersion_curOp (v : Half) (s : State) : (setVersion v s).curOp = s.curOp := rfl
@[simp] theorem setVersion_meas (v : Half) (s : State) : (setVersion v s).meas = s.meas := rfl
@[simp] theorem setVersion_pending (v : Half) (s : State) :
    (setVersion v s).pending = s.pending := rfl
@[simp] theorem setVersion_hours (v : Half) (s : State) : (setVersion v s).hours = s.hours := rfl
@[simp] theorem setVersion_code (v : Half) (s : State) : (setVersion v s).code = s.code := rfl
@[simp] theorem setVersion_wrOk (v : Half) (s : State) : (setVersion v s).wrOk = s.wrOk := rfl
@[simp] theorem setVersion_xreq (v : Half) (s : State) : (setVersion v s).xreq = s.xreq := rfl
@[simp] theorem setVersion_settle (v : Half) (s : State) : (setVersion v s).settle = s.settle := rfl
@[simp] theorem setVersion_resp (v : Half) (s : State) :
    (setVersion v s).resp = { s.resp with rw0 := setRw0FwValid s.resp.rw0, rw1 := v.setWidth 32 } := rfl
@[simp] theorem setVersion_hostErr (v : Half) (s : State) :
    (setVersion v s).hostErr = s.hostErr := rfl
@[simp] theorem setVersion_cmd (v : Half) (s : State) : (setVersion v s).cmd = s.cmd := rfl
@[simp] theorem setVersion_cfg (v : Half) (s : State) : (setVersion v s).cfg = s.cfg := rfl
@[simp] theorem setVersion_decOut (v : Half) (s : State) : (setVersion v s).decOut = s.decOut := rfl
@[simp] theorem setVersion_sched (v : Half) (s : State) : (setVersion v s).sched = s.sched := rfl
@[simp] theorem setVersion_draws (v : Half) (s : State) : (setVersion v s).draws = s.draws := rfl
@[simp] theorem setVersion_trace (v : Half) (s : State) : (setVersion v s).trace = s.trace := rfl

/-! ### resetPulse -/

@[simp] theorem resetPulse_fsm (s : State) : (resetPulse s).fsm = .uninit := rfl
@[simp] theorem resetPulse_phase (s : State) : (resetPulse s).phase = .none := rfl
@[simp] theorem resetPulse_curOp (s : State) : (resetPulse s).curOp = 0 := rfl
@[simp] theorem resetPulse_meas (s : State) : (resetPulse s).meas = .cum := rfl
@[simp] theorem resetPulse_pending (s : State) : (resetPulse s).pending = 0 := rfl
@[simp] theorem resetPulse_hours (s : State) : (resetPulse s).hours = 0 := rfl
@[simp] theorem resetPulse_code (s : State) : (resetPulse s).code = 0 := rfl
@[simp] theorem resetPulse_wrOk (s : State) : (resetPulse s).wrOk = false := rfl
@[simp] theorem resetPulse_xreq (s : State) : (resetPulse s).xreq = none := rfl
@[simp] theorem resetPulse_settle (s : State) : (resetPulse s).settle = false := rfl
@[simp] theorem resetPulse_resp (s : State) : (resetPulse s).resp = Resp.zero := rfl
@[simp] theorem resetPulse_hostErr (s : State) : (resetPulse s).hostErr = false := rfl
@[simp] theorem resetPulse_cmd (s : State) : (resetPulse s).cmd = none := rfl
@[simp] theorem resetPulse_cfg (s : State) : (resetPulse s).cfg = s.cfg := rfl
@[simp] theorem resetPulse_decOut (s : State) : (resetPulse s).decOut = DecOut.zero := rfl
@[simp] theorem resetPulse_sched (s : State) : (resetPulse s).sched = s.sched := rfl
@[simp] theorem resetPulse_draws (s : State) : (resetPulse s).draws = s.draws := rfl
@[simp] theorem resetPulse_trace (s : State) : (resetPulse s).trace = .reset :: s.trace := rfl

end Sys2Proof.Machine
end

