-- ==== Sys2Proof/Laws/Flags.lean ====
section
/-! SUPPORT. The fields of RW0 (30_encoding.md R68): a field reads back what was written into it, and
a write of one field leaves the others. -/

namespace Sys2Proof.Machine

/-- Bit `j` of a word after a field was replaced. -/
theorem getLsbD_insertField {n : Nat} (w : Word) (lo : Nat) (x : BitVec n) (hn : lo + n ≤ 32)
    (j : Nat) : (insertField w lo x).getLsbD j =
      if lo ≤ j ∧ j < lo + n then x.getLsbD (j - lo) else w.getLsbD j := by
  unfold insertField
  by_cases hj : j < 32
  · by_cases h1 : lo ≤ j
    · by_cases h2 : j < lo + n
      · have h3 : j - lo < n := by omega
        have h4 : j - lo < 32 := by omega
        simp only [BitVec.getLsbD_or, BitVec.getLsbD_and, BitVec.getLsbD_not, BitVec.getLsbD_shiftLeft,
          BitVec.getLsbD_setWidth, BitVec.getLsbD_allOnes, hj, h1, h2, h3, h4]
        have h5 : ¬ j < lo := by omega
        simp [h5]
      · have h3 : ¬ j - lo < n := by omega
        have h4 : j - lo < 32 := by omega
        simp only [BitVec.getLsbD_or, BitVec.getLsbD_and, BitVec.getLsbD_not, BitVec.getLsbD_shiftLeft,
          BitVec.getLsbD_setWidth, BitVec.getLsbD_allOnes, hj, h2, h3,
          BitVec.getLsbD_of_ge x (j - lo) (by omega)]
        simp
    · have h5 : j < lo := by omega
      simp only [BitVec.getLsbD_or, BitVec.getLsbD_and, BitVec.getLsbD_not, BitVec.getLsbD_shiftLeft,
          BitVec.getLsbD_setWidth, BitVec.getLsbD_allOnes, hj, h5]
      simp
      exact fun h => absurd h h1
  · have h2 : ¬ j < lo + n := by omega
    have h6 : 32 ≤ j := by omega
    rw [BitVec.getLsbD_of_ge _ _ h6, BitVec.getLsbD_of_ge w _ h6]
    simp [h2]

/-- STATUS reads back. -/
@[simp] theorem rw0Status_setRw0Status (w : Word) (st : Status) :
    rw0Status (setRw0Status w st) = st.bits := by
  apply BitVec.eq_of_getLsbD_eq; intro i hi
  simp [rw0Status, field, setRw0Status, getLsbD_insertField, hi]

/-- OP_ECHO stays when STATUS is written. -/
@[simp] theorem rw0OpEcho_setRw0Status (w : Word) (st : Status) :
    rw0OpEcho (setRw0Status w st) = rw0OpEcho w := by
  apply BitVec.eq_of_getLsbD_eq; intro i hi
  simp [rw0OpEcho, field, setRw0Status, getLsbD_insertField, hi]

/-- OP_ECHO stays when FW_VALID is written. -/
@[simp] theorem rw0OpEcho_setRw0FwValid (w : Word) : rw0OpEcho (setRw0FwValid w) = rw0OpEcho w := by
  apply BitVec.eq_of_getLsbD_eq; intro i hi
  simp [rw0OpEcho, field, setRw0FwValid, getLsbD_insertField, hi]
  omega

/-- OP_ECHO stays when ID_VALID is written. -/
@[simp] theorem rw0OpEcho_setRw0IdValid (w : Word) : rw0OpEcho (setRw0IdValid w) = rw0OpEcho w := by
  apply BitVec.eq_of_getLsbD_eq; intro i hi
  simp [rw0OpEcho, field, setRw0IdValid, getLsbD_insertField, hi]
  omega

/-- OP_ECHO stays when an MST is written. -/
@[simp] theorem rw0OpEcho_setRw0Mst (w : Word) (k : Kind) (m : Mst) :
    rw0OpEcho (setRw0Mst w k m) = rw0OpEcho w := by
  apply BitVec.eq_of_getLsbD_eq; intro i hi
  cases k <;> simp [rw0OpEcho, field, setRw0Mst, getLsbD_insertField, hi, Kind.index] <;> omega

/-- OP_ECHO of an accepted command (R103, R110, R118). -/
@[simp] theorem rw0OpEcho_rw0Accepted (op : BitVec 4) : rw0OpEcho (rw0Accepted op) = op := by
  apply BitVec.eq_of_getLsbD_eq; intro i hi
  have : 4 + i < 32 := by omega
  simp [rw0OpEcho, field, rw0Accepted, hi, this]

/-- MST(k) reads back. -/
@[simp] theorem rw0Mst_setRw0Mst (w : Word) (k : Kind) (m : Mst) :
    rw0Mst (setRw0Mst w k m) k = m.bits := by
  apply BitVec.eq_of_getLsbD_eq; intro i hi
  have h2 : i < 2 := hi
  cases k <;> simp [rw0Mst, setRw0Mst, getLsbD_insertField, Kind.index, h2] <;> omega

/-- The MST of another kind stays. -/
theorem rw0Mst_setRw0Mst_of_ne (w : Word) (k j : Kind) (h : k ≠ j) (m : Mst) :
    rw0Mst (setRw0Mst w k m) j = rw0Mst w j := by
  apply BitVec.eq_of_getLsbD_eq; intro i hi
  cases k <;> cases j <;> simp_all [rw0Mst, setRw0Mst, getLsbD_insertField, Kind.index] <;> omega

/-- The MSTs stay when STATUS is written. -/
@[simp] theorem rw0Mst_setRw0Status (w : Word) (st : Status) (j : Kind) :
    rw0Mst (setRw0Status w st) j = rw0Mst w j := by
  apply BitVec.eq_of_getLsbD_eq; intro i hi
  cases j <;> simp_all [rw0Mst, setRw0Status, getLsbD_insertField, Kind.index] <;> omega

/-- STATUS of a rejection (R99, R100). -/
@[simp] theorem rw0Status_rw0Rejected (st : Status) (op : BitVec 4) :
    rw0Status (rw0Rejected st op) = st.bits := by
  apply BitVec.eq_of_getLsbD_eq; intro i hi
  simp [rw0Status, field, rw0Rejected, hi]

/-- OP_ECHO of a rejection (R68, R99, R100). -/
@[simp] theorem rw0OpEcho_rw0Rejected (st : Status) (op : BitVec 4) :
    rw0OpEcho (rw0Rejected st op) = op := by
  apply BitVec.eq_of_getLsbD_eq; intro i hi
  have : 4 + i < 32 := by omega
  simp [rw0OpEcho, field, rw0Rejected, hi, this]

end Sys2Proof.Machine
end

