-- ==== Sys2Proof/Laws/Engine.lean ====
section
/-! SUPPORT. One lemma for each engine step: everything it can do, in the named operations, with the
words it leaves in the response buffer as a witness that keeps OP_ECHO. -/

namespace Sys2Proof.Machine

/-- Recording a read changes the response buffer alone, and not OP_ECHO (R112, R115). -/
theorem recordRead_eq (k : Kind) (r : ReadRsp) (s : State) :
    ∃ ρ, rw0OpEcho ρ.rw0 = rw0OpEcho s.resp.rw0 ∧ recordRead k r s = setResp ρ s := by
  unfold recordRead
  split
  · exact ⟨_, by simp, rfl⟩
  · split
    · exact ⟨setRespData { s.resp with rw0 := setRw0Mst s.resp.rw0 k .valid } k _,
        by cases k <;> simp [setRespData], rfl⟩
    · exact ⟨_, by simp, rfl⟩

/-- IDCHECK compares both fields with the expected identity (R85). -/
theorem idCheck_eq_true {pid : BitVec 20} {vid : Half} :
    idCheck pid vid = true ↔ vid = Config.vendorExpected ∧ pid = Config.productExpected := by
  simp [idCheck]

/-- The answer to the identity read is four bytes that pass IDCHECK (R85, R104). -/
def identified (r : ReadRsp) : Prop :=
  ∃ b0 b1 b2 b3, r = .data [b0, b1, b2, b3] ∧
    idCheck (productId b0 b1 b3) (vendorId b2 b3) = true

/-- ID_RD ends the command, in READY or UNUSABLE, or goes on to the version read, each exactly under
the rule's guard (R104). -/
theorem idRdStep_cases (r : ReadRsp) (s : State) :
    ∃ ρ, rw0OpEcho ρ.rw0 = rw0OpEcho s.resp.rw0 ∧
      ((identified r ∧ s.cfg.readVersionAtInit = false ∧
          idRdStep r s = finish .ready (setResp ρ (takeTRsp r.toTRsp s))) ∨
        (¬ identified r ∧ idRdStep r s = finish .unusable (setResp ρ (takeTRsp r.toTRsp s))) ∨
        (identified r ∧ s.cfg.readVersionAtInit = true ∧
          idRdStep r s
            = issue reqVersion (setPhase .verRd (setResp ρ (takeTRsp r.toTRsp s))))) := by
  unfold idRdStep
  split
  · exact ⟨_, by simp, .inr (.inl ⟨by simp [identified], rfl⟩)⟩
  · rename_i b0 b1 b2 b3
    unfold idRdChecked
    split
    · rename_i hm
      refine ⟨(setStatus .identityMismatch
        (setIdentity (productId b0 b1 b3) (vendorId b2 b3) s)).resp, by simp, .inr (.inl ⟨?_, rfl⟩)⟩
      rintro ⟨_, _, _, _, h, hc⟩
      cases h
      simp [hm] at hc
    · rename_i hm hv
      exact ⟨_, by simp, .inr (.inr ⟨⟨_, _, _, _, rfl, hm⟩, hv, rfl⟩)⟩
    · rename_i hm hv
      exact ⟨(setStatus .ok (setIdentity (productId b0 b1 b3) (vendorId b2 b3) s)).resp,
        by simp, .inl ⟨⟨_, _, _, _, rfl, hm⟩, hv, rfl⟩⟩
  · rename_i hl
    refine ⟨_, by simp, .inr (.inl ⟨?_, rfl⟩)⟩
    rintro ⟨_, _, _, _, h, -⟩
    cases h
    exact hl _ _ _ _ rfl

/-- VER_RD ends the command in READY (R105). -/
theorem verRdStep_eq (r : ReadRsp) (s : State) :
    ∃ ρ, rw0OpEcho ρ.rw0 = rw0OpEcho s.resp.rw0 ∧
      verRdStep r s = finish .ready (setResp ρ (takeTRsp r.toTRsp s)) := by
  unfold verRdStep
  split
  · exact ⟨{ s.resp with rw0 := setRw0Status (setRw0FwValid s.resp.rw0) .ok, rw1 := _ },
      by simp, rfl⟩
  · exact ⟨_, by simp, rfl⟩
  · exact ⟨_, by simp, rfl⟩

/-- MEAS_RD goes back to SELECT (R112). -/
theorem measRdStep_eq (r : ReadRsp) (s : State) :
    ∃ ρ, rw0OpEcho ρ.rw0 = rw0OpEcho s.resp.rw0 ∧
      measRdStep r s = setPhase .select (setResp ρ (takeTRsp r.toTRsp s)) := by
  obtain ⟨ρ, h, e⟩ := recordRead_eq s.meas r (takeTRsp r.toTRsp s)
  exact ⟨ρ, h, by rw [measRdStep, e]⟩

/-- WIN_RD goes back to SELECT (R115). -/
theorem winRdStep_eq (r : ReadRsp) (s : State) :
    ∃ ρ, rw0OpEcho ρ.rw0 = rw0OpEcho s.resp.rw0 ∧
      winRdStep r s = setPhase .select (setResp ρ (takeTRsp r.toTRsp s)) := by
  obtain ⟨ρ, h, e⟩ := recordRead_eq .win r (takeTRsp r.toTRsp s)
  exact ⟨ρ, h, by rw [winRdStep, e]⟩

/-- WIN_SETTLE reads TIME_RAINFALL after a good write and goes back to SELECT after a failed one
(R114). -/
theorem winSettleStep_cases (s : State) :
    (s.wrOk = true ∧
      winSettleStep s = issue (reqMeasurement .win) (setPhase .winRd (takeSettleDone s))) ∨
    (s.wrOk = false ∧ ∃ ρ, rw0OpEcho ρ.rw0 = rw0OpEcho s.resp.rw0 ∧
      winSettleStep s = setPhase .select (setResp ρ (takeSettleDone s))) := by
  unfold winSettleStep
  cases h : s.wrOk
  · exact .inr ⟨rfl, (setMst .win .unavailTransport s).resp, by simp, rfl⟩
  · exact .inl ⟨rfl, rfl⟩

/-- BASE_SETTLE ends the command in READY (R120). -/
theorem baseSettleStep_eq (s : State) :
    ∃ ρ, rw0OpEcho ρ.rw0 = rw0OpEcho s.resp.rw0 ∧
      baseSettleStep s = finish .ready (setResp ρ (takeSettleDone s)) := by
  unfold baseSettleStep
  cases s.wrOk
  · exact ⟨(setStatus .transportError s).resp, by simp, rfl⟩
  · exact ⟨(setStatus .ok s).resp, by simp, rfl⟩

/-- The pending kinds are those whose bit is set (R111). -/
theorem mem_pendingKinds {p : BitVec 4} {k : Kind} : k ∈ pendingKinds p ↔ isPending p k = true := by
  simp only [pendingKinds, List.mem_filter]
  cases k <;> simp

/-- A draw is one of the kinds drawn from (R10, R111). -/
theorem drawKind_mem (pick : Option Nat) (n : Nat) (k : Kind) (ks : List Kind) :
    (drawKind pick n k ks).1 ∈ k :: ks := by
  have h : ∀ i, (k :: ks).getD (i % (ks.length + 1)) k ∈ k :: ks := by
    intro i
    have hi : i % (ks.length + 1) < (k :: ks).length := by
      simpa using Nat.mod_lt i (Nat.succ_pos ks.length)
    rw [List.getD_eq_getElem _ _ hi]
    exact List.getElem_mem hi
  unfold drawKind
  split
  · simp
  · split
    · exact h _
    · exact h _

/-- SELECT ends the command when nothing is pending, and starts a pending kind otherwise (R111). -/
theorem selectStep_cases (pick : Option Nat) (s : State) :
    (pendingKinds s.pending = [] ∧ selectStep pick s = finish .ready (setStatus .ok s)) ∨
    (∃ k n, isPending s.pending k = true ∧
      selectStep pick s = startMeasurement k (setDraws n s)) := by
  unfold selectStep
  split
  · exact .inl ⟨by assumption, rfl⟩
  · rename_i k ks hk
    refine .inr ⟨_, _, ?_, rfl⟩
    rw [← mem_pendingKinds, hk]
    exact drawKind_mem pick s.draws k ks

/-- Nothing is pending exactly when PENDING = 0 (R21). -/
theorem pendingKinds_eq_nil {p : BitVec 4} : pendingKinds p = [] ↔ p = 0 := by
  revert p; decide

end Sys2Proof.Machine
end

