-- ==== Sys2Proof/Laws/PerInstr.lean ====
section
/-! SUPPORT. Statements made for every instruction, one lemma per constructor: the encoding of an
instruction carries the mask and match of its row of spec/opcode_table.json. -/

namespace Sys2Proof.Laws

/-- What a row of the opcode table fixes of an encoding. -/
structure TableRow where
  /-- 32 for the command words, 3 for the decoder selections -/
  bits : Nat
  mask : Nat
  value : Nat
  deriving DecidableEq, Repr

/-- The row of spec/opcode_table.json of each instruction. -/
def tableRow : Instr → TableRow
  | .init => ⟨32, 0xFFFFFFFF, 0x00000001⟩
  | .poll _ _ _ _ _ => ⟨32, 0xFFFF000F, 0x00000002⟩
  | .setBase _ => ⟨32, 0x0000FFFF, 0x00000003⟩
  | .decIdentity _ _ _ _ => ⟨3, 0x7, 0x0⟩
  | .decVersion _ _ => ⟨3, 0x7, 0x1⟩
  | .decRainfall _ _ _ _ => ⟨3, 0x7, 0x2⟩
  | .decRawcount _ _ _ _ => ⟨3, 0x7, 0x3⟩
  | .decWorktime _ _ => ⟨3, 0x7, 0x4⟩
  | .encBase _ => ⟨3, 0x7, 0x5⟩
  | .encWindow _ => ⟨3, 0x7, 0x6⟩

/-- A carrier has the bits the row fixes: a command word on its 32 bits, a selection on FUNC. -/
def TableRow.admits (r : TableRow) : Encoded → Prop
  | .cmd w => r.bits = 32 ∧ w &&& BitVec.ofNat 32 r.mask = BitVec.ofNat 32 r.value
  | .dec p => r.bits = 3 ∧ p.func &&& BitVec.ofNat 3 r.mask = BitVec.ofNat 3 r.value

/-- The instruction's encoding is one its row of the opcode table admits. -/
def MatchesTableRow.Statement (i : Instr) : Prop := (tableRow i).admits (encode i)

theorem MatchesTableRow.init : MatchesTableRow.Statement .init := ⟨rfl, by decide⟩

theorem MatchesTableRow.poll (cum win raw time : Bool) (hours : Byte) :
    MatchesTableRow.Statement (.poll cum win raw time hours) := by
  refine ⟨rfl, ?_⟩
  apply BitVec.eq_of_getLsbD_eq
  intro i hi
  simp only [pollWord, flagAt, tableRow]
  interval_cases i <;> simp [BitVec.getLsbD_of_ge]

theorem MatchesTableRow.setBase (code : Half) :
    MatchesTableRow.Statement (.setBase code) := by
  refine ⟨rfl, ?_⟩
  apply BitVec.eq_of_getLsbD_eq
  intro i hi
  simp only [setBaseWord, tableRow]
  interval_cases i <;> simp

theorem MatchesTableRow.decIdentity (b0 b1 b2 b3 : Byte) :
    MatchesTableRow.Statement (.decIdentity b0 b1 b2 b3) := ⟨rfl, by simp [tableRow, selectFunc]⟩

theorem MatchesTableRow.decVersion (b0 b1 : Byte) :
    MatchesTableRow.Statement (.decVersion b0 b1) := ⟨rfl, by simp [tableRow, selectFunc]⟩

theorem MatchesTableRow.decRainfall (b0 b1 b2 b3 : Byte) :
    MatchesTableRow.Statement (.decRainfall b0 b1 b2 b3) := ⟨rfl, by simp [tableRow, selectFunc]⟩

theorem MatchesTableRow.decRawcount (b0 b1 b2 b3 : Byte) :
    MatchesTableRow.Statement (.decRawcount b0 b1 b2 b3) := ⟨rfl, by simp [tableRow, selectFunc]⟩

theorem MatchesTableRow.decWorktime (b0 b1 : Byte) :
    MatchesTableRow.Statement (.decWorktime b0 b1) := ⟨rfl, by simp [tableRow, selectFunc]⟩

theorem MatchesTableRow.encBase (code : Half) :
    MatchesTableRow.Statement (.encBase code) := ⟨rfl, by simp [tableRow, selectFunc]⟩

theorem MatchesTableRow.encWindow (hours : Byte) :
    MatchesTableRow.Statement (.encWindow hours) := ⟨rfl, by simp [tableRow, selectFunc]⟩

end Sys2Proof.Laws
end

