-- ==== Sys2Proof/Laws/Step.lean ====
section
/-! SUPPORT. What a step can do, said once: `Transition` lists every transition of the machine with its
guard, and `step_total` and `step_transition` say that a step is one of them, so that a claim is
proved transition by transition without unfolding `step`. -/

namespace Sys2Proof.Machine

/-- What taking the offered word can do (R98, R99, R132). -/
theorem fetchCmd_cases {s : State} {o : Host.Outcome State Fault Refusal} (h : fetchCmd s = o) :
    (s.cmd = none ∧ o = .next s) ∨
    (∃ w i, s.cmd = some w ∧ decodeCmd w = .ok i ∧ o = exec i s) ∨
    (∃ w e, s.cmd = some w ∧ decodeCmd w = .error e ∧ o = .next (reject .badCommand w s)) := by
  unfold fetchCmd at h
  cases hc : s.cmd with
  | none => exact .inl ⟨rfl, by simpa [hc] using h.symm⟩
  | some w =>
    rw [hc] at h
    cases hd : decodeCmd w with
    | ok i => exact .inr (.inl ⟨w, i, rfl, hd, by simpa [decode, hd] using h.symm⟩)
    | error e => exact .inr (.inr ⟨w, e, rfl, hd, by simpa [decode, hd] using h.symm⟩)

/-- A command word decodes to a host command, never to a decoder function (R79). -/
theorem decodeCmd_ok_cases {w : Word} {i : Instr} (h : decodeCmd w = .ok i) :
    i = .init ∨ (∃ c wi r t hr, i = .poll c wi r t hr) ∨ (∃ c, i = .setBase c) := by
  unfold decodeCmd at h
  split at h
  · split at h
    · exact .inl (by cases h; rfl)
    · cases h
  · split at h
    · split at h
      · exact .inr (.inl ⟨_, _, _, _, _, by cases h; rfl⟩)
      · cases h
    · split at h
      · split at h
        · exact .inr (.inr ⟨_, by cases h; rfl⟩)
        · cases h
      · cases h

/-- A decoder selection names a function, whose meaning drives the decoder's ports with outputs that
depend on the operands alone, or is the reserved FUNC = 7 (R72 to R74). -/
theorem decodeDec_cases (p : DecIn) :
    (∃ i, decodeDec p = .ok i ∧ ∃ o, ∀ s, exec i s = .next (driveOutputs o s)) ∨
      decodeDec p = .error .reservedFunc := by
  unfold decodeDec
  by_cases h0 : p.func = 0
  · rw [if_pos h0]; exact .inl ⟨_, rfl, _, fun _ => rfl⟩
  rw [if_neg h0]
  by_cases h1 : p.func = 1
  · rw [if_pos h1]; exact .inl ⟨_, rfl, _, fun _ => rfl⟩
  rw [if_neg h1]
  by_cases h2 : p.func = 2
  · rw [if_pos h2]; exact .inl ⟨_, rfl, _, fun _ => rfl⟩
  rw [if_neg h2]
  by_cases h3 : p.func = 3
  · rw [if_pos h3]; exact .inl ⟨_, rfl, _, fun _ => rfl⟩
  rw [if_neg h3]
  by_cases h4 : p.func = 4
  · rw [if_pos h4]; exact .inl ⟨_, rfl, _, fun _ => rfl⟩
  rw [if_neg h4]
  by_cases h5 : p.func = 5
  · rw [if_pos h5]; exact .inl ⟨_, rfl, _, fun _ => rfl⟩
  rw [if_neg h5]
  by_cases h6 : p.func = 6
  · rw [if_pos h6]; exact .inl ⟨_, rfl, _, fun _ => rfl⟩
  rw [if_neg h6]; exact .inr rfl

/-- A decoder selection drives the decoder's ports and nothing else (R72 to R74). -/
theorem decoderSelect_cases (p : DecIn) (s : State) :
    ∃ o, decoderSelect p s = .next (driveOutputs o s) := by
  simp only [decoderSelect, decode]
  rcases decodeDec_cases p with ⟨i, hi, o, ho⟩ | hi
  · exact ⟨o, by rw [hi]; exact ho s⟩
  · exact ⟨reservedFuncOut, by rw [hi]⟩

/-- The move is the engine's, or the schedule names none, which leaves it to the engine (R97). -/
def engineTurn (m : Option Move) : Prop := m = none ∨ ∃ pick, m = some (.engine pick)

/-- Every transition of the machine, with its guard, from the state `s` in which the move `m` (none: the
schedule names none) has left the schedule. -/
inductive Transition (m : Option Move) (s : State) : State → Prop where
  /-- a move that is not enabled, or a wait: nothing changes -/
  | stay : Transition m s s
  | offer (w : Word) : m = some (.host w) → s.cmd = none → Transition m s (putCmd w s)
  | init (w : Word) : engineTurn m → s.cmd = some w → decodeCmd w = .ok .init → s.fsm ≠ .busy →
      Transition m s (acceptInit s)
  | poll (w : Word) (c wi r t : Bool) (h : Byte) : engineTurn m → s.cmd = some w →
      decodeCmd w = .ok (.poll c wi r t h) → s.fsm = .ready →
      Transition m s (acceptPoll c wi r t h s)
  | setBase (w : Word) (c : Half) : engineTurn m → s.cmd = some w →
      decodeCmd w = .ok (.setBase c) → s.fsm = .ready → Transition m s (acceptSetBase c s)
  | pollNotReady (w : Word) (c wi r t : Bool) (h : Byte) : engineTurn m → s.cmd = some w →
      decodeCmd w = .ok (.poll c wi r t h) → s.fsm = .uninit ∨ s.fsm = .unusable →
      Transition m s (reject .notReady (pollWord c wi r t h) s)
  | setBaseNotReady (w : Word) (c : Half) : engineTurn m → s.cmd = some w →
      decodeCmd w = .ok (.setBase c) → s.fsm = .uninit ∨ s.fsm = .unusable →
      Transition m s (reject .notReady (setBaseWord c) s)
  | reserved (w : Word) (e : DecodeError) : engineTurn m → s.cmd = some w → s.fsm ≠ .busy →
      decodeCmd w = .error e → Transition m s (reject .badCommand w s)
  | select (pick : Option Nat) : engineTurn m → s.fsm = .busy → s.phase = .select →
      Transition m s (selectStep pick s)
  | idRd (r : ReadRsp) (q : XReq) : m = some (.transport r.toTRsp) → s.phase = .idRd →
      s.xreq = some q → q.kind = .read → Transition m s (idRdStep r s)
  | verRd (r : ReadRsp) (q : XReq) : m = some (.transport r.toTRsp) → s.phase = .verRd →
      s.xreq = some q → q.kind = .read → Transition m s (verRdStep r s)
  | measRd (r : ReadRsp) (q : XReq) : m = some (.transport r.toTRsp) → s.phase = .measRd →
      s.xreq = some q → q.kind = .read → Transition m s (measRdStep r s)
  | winWr (r : WriteRsp) (q : XReq) : m = some (.transport r.toTRsp) → s.phase = .winWr →
      s.xreq = some q → q.kind = .write → Transition m s (winWrStep r s)
  | winSettle : m = some .timer → s.phase = .winSettle → s.settle = true →
      Transition m s (winSettleStep s)
  | winRd (r : ReadRsp) (q : XReq) : m = some (.transport r.toTRsp) → s.phase = .winRd →
      s.xreq = some q → q.kind = .read → Transition m s (winRdStep r s)
  | baseWr (r : WriteRsp) (q : XReq) : m = some (.transport r.toTRsp) → s.phase = .baseWr →
      s.xreq = some q → q.kind = .write → Transition m s (baseWrStep r s)
  | baseSettle : m = some .timer → s.phase = .baseSettle → s.settle = true →
      Transition m s (baseSettleStep s)
  | reset : m = some .reset → Transition m s (resetPulse s)
  | decoder (p : DecIn) (o : DecOut) : m = some (.decoder p) → Transition m s (driveOutputs o s)

/-- A stable engine's step is one of the transitions of the command channel (R98 to R118). -/
theorem fetchCmd_transition {m : Option Move} (hm : engineTurn m) {s : State} (hb : s.fsm ≠ .busy) :
    ∃ s', fetchCmd s = .next s' ∧ Transition m s s' := by
  rcases fetchCmd_cases (s := s) rfl with ⟨-, h⟩ | ⟨w, i, hc, hd, h⟩ | ⟨w, e, hc, hd, h⟩
  · exact ⟨_, h, .stay⟩
  · rw [h]
    rcases decodeCmd_ok_cases hd with rfl | ⟨c, wi, r, t, hr, rfl⟩ | ⟨c, rfl⟩
    · simp only [exec, execInit]
      cases hf : s.fsm with
      | busy => exact absurd hf hb
      | _ => exact ⟨_, rfl, .init w hm hc hd hb⟩
    · simp only [exec, execPoll]
      cases hf : s.fsm with
      | busy => exact absurd hf hb
      | ready => exact ⟨_, rfl, .poll w c wi r t hr hm hc hd hf⟩
      | uninit => exact ⟨_, rfl, .pollNotReady w c wi r t hr hm hc hd (.inl hf)⟩
      | unusable => exact ⟨_, rfl, .pollNotReady w c wi r t hr hm hc hd (.inr hf)⟩
    · simp only [exec, execSetBase]
      cases hf : s.fsm with
      | busy => exact absurd hf hb
      | ready => exact ⟨_, rfl, .setBase w c hm hc hd hf⟩
      | uninit => exact ⟨_, rfl, .setBaseNotReady w c hm hc hd (.inl hf)⟩
      | unusable => exact ⟨_, rfl, .setBaseNotReady w c hm hc hd (.inr hf)⟩
  · exact ⟨_, h, .reserved w e hm hc hb hd⟩

/-- The engine's own step is one of the transitions (R97). -/
theorem engineStep_transition {m : Option Move} (hm : engineTurn m) (pick : Option Nat) (s : State) :
    ∃ s', engineStep pick s = .next s' ∧ Transition m s s' := by
  unfold engineStep
  cases hf : s.fsm with
  | busy =>
    cases hp : s.phase with
    | select => exact ⟨_, rfl, .select pick hm hf hp⟩
    | _ => exact ⟨_, rfl, .stay⟩
  | _ => exact fetchCmd_transition hm (by simp [hf])

/-- A read answer is the answer the trace shows. -/
theorem asRead_eq_some {r : TRsp} {a : ReadRsp} (h : r.asRead = some a) : a.toTRsp = r := by
  cases r <;> simp only [TRsp.asRead, Option.some.injEq, reduceCtorEq] at h <;> subst h <;> rfl

/-- A write answer is the answer the trace shows. -/
theorem asWrite_eq_some {r : TRsp} {a : WriteRsp} (h : r.asWrite = some a) : a.toTRsp = r := by
  cases r <;> simp only [TRsp.asWrite, Option.some.injEq, reduceCtorEq] at h <;> subst h <;> rfl

/-- The Transport's move is one of the transitions (R122). -/
theorem transportAnswer_transition (r : TRsp) (s : State) :
    Transition (some (.transport r)) s (transportAnswer r s) := by
  unfold transportAnswer
  cases hx : s.xreq with
  | none => exact .stay
  | some q =>
    cases hk : q.kind with
    | read =>
      cases ha : r.asRead with
      | none => simp only [hk]; exact .stay
      | some a =>
        have hr : some (Move.transport r) = some (.transport a.toTRsp) := by
          rw [asRead_eq_some ha]
        simp only [hk, readAnswered]
        cases hp : s.phase with
        | idRd => exact .idRd a q hr hp hx hk
        | verRd => exact .verRd a q hr hp hx hk
        | measRd => exact .measRd a q hr hp hx hk
        | winRd => exact .winRd a q hr hp hx hk
        | _ => exact .stay
    | write =>
      cases ha : r.asWrite with
      | none => simp only [hk]; exact .stay
      | some a =>
        have hr : some (Move.transport r) = some (.transport a.toTRsp) := by
          rw [asWrite_eq_some ha]
        simp only [hk, writeAnswered]
        cases hp : s.phase with
        | winWr => exact .winWr a q hr hp hx hk
        | baseWr => exact .baseWr a q hr hp hx hk
        | _ => exact .stay

/-- The Settle Timer's move is one of the transitions (R122, R136). -/
theorem timerSignal_transition (s : State) : Transition (some .timer) s (timerSignal s) := by
  unfold timerSignal
  cases hs : s.settle with
  | false => exact .stay
  | true =>
    cases hp : s.phase with
    | winSettle => exact .winSettle rfl hp hs
    | baseSettle => exact .baseSettle rfl hp hs
    | _ => exact .stay

/-- Every step answers a next state, by one of the transitions of the move at the head of the
schedule, from the state without that move (R10, R11, R126). -/
theorem step_total (s : State) :
    ∃ s', step s = .next s' ∧ Transition s.sched.head? (setSched s.sched.tail s) s' := by
  unfold step runNextMove
  cases hs : s.sched with
  | nil =>
    have : setSched [] s = s := by rw [← hs]; rfl
    simpa [this] using engineStep_transition (.inl rfl) none s
  | cons m rest =>
    cases m with
    | host w =>
      refine ⟨_, rfl, ?_⟩
      unfold hostOffer
      cases hc : (setSched rest s).cmd with
      | none => exact .offer w rfl hc
      | some v => exact .stay
    | engine pick => exact engineStep_transition (.inr ⟨pick, rfl⟩) pick (setSched rest s)
    | transport r => exact ⟨_, rfl, transportAnswer_transition r _⟩
    | timer => exact ⟨_, rfl, timerSignal_transition _⟩
    | reset => exact ⟨_, rfl, .reset rfl⟩
    | decoder p =>
      obtain ⟨o, ho⟩ := decoderSelect_cases p (setSched rest s)
      exact ⟨_, ho, .decoder p o rfl⟩

/-- What a step can do: `Transition` lists it. -/
theorem step_transition {s s' : State} (h : step s = .next s') :
    Transition s.sched.head? (setSched s.sched.tail s) s' := by
  obtain ⟨t, ht, hT⟩ := step_total s
  cases h.symm.trans ht
  exact hT

/-- A property that a change of the schedule and every transition keep is kept by every step. -/
theorem step_keeps (P : State → Prop) (sched : ∀ (s : State) (l : List Move), P s → P (setSched l s))
    (keeps : ∀ (m : Option Move) (s s' : State), Transition m s s' → P s → P s')
    {s s' : State} (hs : P s) (h : step s = .next s') : P s' :=
  keeps _ _ _ (step_transition h) (sched s _ hs)

end Sys2Proof.Machine
end

