-- ==== Sys2Proof/Tests/Slice0.lean ====
section
/-! SUPPORT. The model's own tests and, for every statement with hypotheses, a witness that meets them
together. The expected values come from spec/95_test_vectors.md (section numbers in the comments) and
from the rules named. -/

open Sys2Proof Sys2Proof.Machine

namespace Sys2Proof.Tests

/-! ## Small states -/

/-- A stable state. -/
def idle (f : FsmState) : State := { State.reset with fsm := f }

/-- A stable state with an offered word. -/
def offered (f : FsmState) (w : Word) : State := { idle f with cmd := some w }

/-- A command in progress: its OP, the phase, the outstanding request. -/
def busy (op : BitVec 4) (p : Phase) (q : Option XReq) : State :=
  { State.reset with fsm := .busy, curOp := op, phase := p, xreq := q }

/-- The state with one move in the schedule. -/
def moving (m : Move) (s : State) : State := { s with sched := [m] }

/-- The next state of a step (the state itself where there is none). -/
def after (s : State) : State :=
  match step s with
  | .next t => t
  | _ => s

/-- The next state of an instruction (the state itself where there is none). -/
def ran (i : Instr) (s : State) : State :=
  match exec i s with
  | .next t => t
  | _ => s

/-- The response at the head of the trace. -/
def lastResp (s : State) : Option Resp :=
  match s.trace with
  | .resp r :: _ => some r
  | _ => none

/-- ID_RD, VER_RD, SELECT, MEAS_RD of a kind, WIN_WR, WIN_SETTLE, WIN_RD, BASE_WR, BASE_SETTLE. -/
def inIdRd : State := busy 1 .idRd (some ⟨.read, 0x00, 4⟩)
def inVerRd : State := busy 1 .verRd (some ⟨.read, 0x0A, 2⟩)
def inSelect (p : BitVec 4) : State := { busy 2 .select none with pending := p, hours := 0x18 }
def inMeasRd (k : Kind) (a : BitVec 8) (n : Nat) : State :=
  { busy 2 .measRd (some ⟨.read, a, n⟩) with meas := k }
def inWinWr : State := busy 2 .winWr (some ⟨.write, 0x26, 1⟩)
def inWinSettle (ok : Bool) : State := { busy 2 .winSettle none with settle := true, wrOk := ok }
def inWinRd : State := busy 2 .winRd (some ⟨.read, 0x0C, 4⟩)
def inBaseWr : State := busy 3 .baseWr (some ⟨.write, 0x28, 2⟩)
def inBaseSettle (ok : Bool) : State := { busy 3 .baseSettle none with settle := true, wrOk := ok }

/-- A decoder selection with other values on the ports the function does not read. -/
def sel (f : BitVec 3) (b0 b1 b2 b3 : Byte) (c : Half) (h : Byte) : DecIn := ⟨f, b0, b1, b2, b3, c, h⟩

/-! ## Well-formedness: every check refuses an ill-formed statement (R78) -/

theorem test_wf_hours_fit : (Asm.poll [.cum, .win 256]).wf = false := by decide
theorem test_wf_hours_fit_all : (Asm.pollAll 256).wf = false := by decide
theorem test_wf_hours_fit_win : (Asm.pollWin 256).wf = false := by decide
theorem test_wf_cum_once : (Asm.poll [.cum, .raw, .cum]).wf = false := by decide
theorem test_wf_win_once : (Asm.poll [.win 1, .win 2]).wf = false := by decide
theorem test_wf_raw_once : (Asm.poll [.raw, .raw]).wf = false := by decide
theorem test_wf_time_once : (Asm.poll [.time, .cum, .time]).wf = false := by decide
theorem test_wf_code_fits : (Asm.setBase 65536).wf = false := by decide
theorem test_wf_accepts_edges : (Asm.poll [.time, .win 255, .cum, .raw]).wf = true ∧
    (Asm.setBase 65535).wf = true ∧ (Asm.poll []).wf = true := by decide

/-! ## Decoding: words written out bit by bit from the formats (R64 to R67, R73, R74; 2.10) -/

theorem test_decode_init :
    decode (.cmd 0b00000000000000000000000000000001) = .ok .init := by decide
theorem test_decode_poll_all :
    decode (.cmd 0b00000000000000000000000111110010) = .ok (.poll true true true true 1) := by decide
theorem test_decode_poll_win :
    decode (.cmd 0b00000000000000000001100000100010) = .ok (.poll false true false false 24) := by
  decide
theorem test_decode_poll_cum_hours_ignored :
    decode (.cmd 0b00000000000000001010101100010010) = .ok (.poll true false false false 0xAB) := by
  decide
theorem test_decode_poll_raw :
    decode (.cmd 0b00000000000000000000000001000010) = .ok (.poll false false true false 0) := by
  decide
theorem test_decode_set_base :
    decode (.cmd 0b00110000001110010000000000000011) = .ok (.setBase 12345) := by decide
theorem test_decode_init_bit4 :
    decode (.cmd 0b00000000000000000000000000010001) = .error (.reservedBits 1) := by decide
theorem test_decode_init_bit31 :
    decode (.cmd 0b10000000000000000000000000000001) = .error (.reservedBits 1) := by decide
theorem test_decode_poll_bit16 :
    decode (.cmd 0b00000000000000010000000000000010) = .error (.reservedBits 2) := by decide
theorem test_decode_set_base_bit4 :
    decode (.cmd 0b00110000001110010000000000010011) = .error (.reservedBits 3) := by decide
theorem test_decode_zero :
    decode (.cmd 0b00000000000000000000000000000000) = .error (.reservedOp 0) := by decide
theorem test_decode_op4 :
    decode (.cmd 0b00000000000000000000000000000100) = .error (.reservedOp 4) := by decide
theorem test_decode_ones :
    decode (.cmd 0b11111111111111111111111111111111) = .error (.reservedOp 15) := by decide
theorem test_decode_dec_identity :
    decode (.dec (sel 0b000 1 2 3 4 5 6)) = .ok (.decIdentity 1 2 3 4) := by decide
theorem test_decode_dec_version :
    decode (.dec (sel 0b001 1 2 3 4 5 6)) = .ok (.decVersion 1 2) := by decide
theorem test_decode_dec_rainfall :
    decode (.dec (sel 0b010 1 2 3 4 5 6)) = .ok (.decRainfall 1 2 3 4) := by decide
theorem test_decode_dec_rawcount :
    decode (.dec (sel 0b011 1 2 3 4 5 6)) = .ok (.decRawcount 1 2 3 4) := by decide
theorem test_decode_dec_worktime :
    decode (.dec (sel 0b100 1 2 3 4 5 6)) = .ok (.decWorktime 1 2) := by decide
theorem test_decode_enc_base :
    decode (.dec (sel 0b101 1 2 3 4 5 6)) = .ok (.encBase 5) := by decide
theorem test_decode_enc_window :
    decode (.dec (sel 0b110 1 2 3 4 5 6)) = .ok (.encWindow 6) := by decide
theorem test_decode_func7 :
    decode (.dec (sel 0b111 1 2 3 4 5 6)) = .error .reservedFunc := by decide
theorem test_encode_poll_all : encode (.poll true true true true 1) = .cmd 0x000001F2 := by decide
theorem test_encode_set_base : encode (.setBase 12345) = .cmd 0x30390003 := by decide

/-! ## The host's table words run as the first instruction (log entry 7) -/

theorem test_fetch_init :
    (after (State.reset.withFetchWord 32 0x1)).phase = .idRd := by decide
theorem test_fetch_poll_rejected :
    lastResp (after (State.reset.withFetchWord 32 0x1F2)) = some ⟨0x24, 0, 0, 0, 0⟩ := by decide
theorem test_fetch_identity_of_zeros :
    (after (State.reset.withFetchWord 8 0)).decOut.isMatch = false := by decide

/-! ## One step of each command (2.11, P1 to P6) -/

theorem test_init_accepted : (ran .init (idle .uninit)).trace
    = [.treq (.read 0x00 4), .cmd 0x00000001] ∧ (ran .init (idle .uninit)).fsm = .busy := by decide
theorem test_poll_accepted : (ran (.poll true true true true 1) (idle .ready)).pending = 0xF ∧
    (ran (.poll true true true true 1) (idle .ready)).hours = 1 := by decide
theorem test_poll_not_ready : lastResp (ran (.poll true true true true 1) (idle .uninit))
    = some ⟨0x24, 0, 0, 0, 0⟩ ∧ (ran (.poll true true true true 1) (idle .uninit)).hostErr := by
  decide
theorem test_set_base_accepted : (ran (.setBase 12345) (idle .ready)).trace
    = [.treq (.write 0x28 [0x39, 0x30]), .cmd 0x30390003] := by decide
theorem test_set_base_not_ready : lastResp (ran (.setBase 12345) (idle .unusable))
    = some ⟨0x34, 0, 0, 0, 0⟩ := by decide
theorem test_reserved_before_not_ready :
    lastResp (after (offered .uninit 0x00010002)) = some ⟨0x25, 0, 0, 0, 0⟩ := by decide
theorem test_reserved_op15 :
    lastResp (after (offered .ready 0xFFFFFFFF)) = some ⟨0xF5, 0, 0, 0, 0⟩ := by decide
theorem test_id_rd_mismatch :
    lastResp (after (moving (.transport (.data [0xC0, 0x00, 0x43, 0x33])) (after (moving (.engine none)
      (offered .uninit 1))))) = some ⟨0x211, 0, 0xC0, 0x3343, 0⟩ := by decide
theorem test_id_rd_long_answer :
    lastResp (after (moving (.transport (.data [0xC0, 0x00, 0x43, 0x73, 0x00]))
      (after (offered .ready 1)))) = some ⟨0x13, 0, 0, 0, 0⟩ := by decide
theorem test_version_error_is_no_fault :
    lastResp (after (moving (.transport .err) { inVerRd with resp := ⟨0x210, 0, 0x100C0, 0x3343, 0⟩ }))
      = some ⟨0x210, 0, 0x100C0, 0x3343, 0⟩ := by decide
theorem test_version_read :
    lastResp (after (moving (.transport (.data [0x34, 0x12]))
      { inVerRd with resp := ⟨0x210, 0, 0x100C0, 0x3343, 0⟩ }))
      = some ⟨0x310, 0x1234, 0x100C0, 0x3343, 0⟩ := by decide
theorem test_select_lowest_first :
    (after (moving (.engine (some 0)) (inSelect 0xE))).trace = [.treq (.write 0x26 [0x18])] := by decide
theorem test_select_empty :
    lastResp (after (moving (.engine (some 3)) { inSelect 0 with resp := ⟨0x16420, 1, 2, 3, 4⟩ }))
      = some ⟨0x16420, 1, 2, 3, 4⟩ := by decide
theorem test_raw_read :
    (after (moving (.transport (.data [0x78, 0x56, 0x34, 0x12])) (inMeasRd .raw 0x14 4))).resp
      = ⟨0x4000, 0, 0, 0x12345678, 0⟩ := by decide
theorem test_time_read_too_long :
    (after (moving (.transport (.data [0x3C, 0, 0, 0])) (inMeasRd .time 0x18 2))).resp
      = ⟨0x30000, 0, 0, 0, 0⟩ := by decide
theorem test_window_write_failed :
    (after (moving .timer (inWinSettle false))).resp.rw0 = 0x2000 ∧
      (after (moving .timer (inWinSettle false))).phase = .select := by decide
theorem test_window_read_failed :
    (after (moving (.transport .err) inWinRd)).resp.rw0 = 0x2000 := by decide
theorem test_base_write_failed :
    lastResp (after (moving .timer { inBaseSettle false with resp := ⟨0x30, 0, 0, 0, 0⟩ }))
      = some ⟨0x32, 0, 0, 0, 0⟩ := by decide
theorem test_poll_held_while_busy :
    (after (moving (.engine none) { inBaseSettle true with cmd := some 0x82 })).cmd = some 0x82 := by
  decide

/-! ## The decoder functions (2.1 to 2.9) -/

theorem test_identity_accepted :
    (ran (.decIdentity 0xC0 0x00 0x43 0x73) State.reset).decOut.f0 = 0x100C0 ∧
      (ran (.decIdentity 0xC0 0x00 0x43 0x73) State.reset).decOut.isMatch = true := by decide
theorem test_identity_big_endian :
    (ran (.decIdentity 0x00 0xC0 0x73 0x43) State.reset).decOut.f0 = 0x1C000 ∧
      (ran (.decIdentity 0x00 0xC0 0x73 0x43) State.reset).decOut.f1 = 0x0373 := by decide
theorem test_version_fields :
    (ran (.decVersion 0xCD 0xAB) State.reset).decOut.f0 = 10 ∧
      (ran (.decVersion 0xCD 0xAB) State.reset).decOut.f3 = 13 := by decide
theorem test_rainfall_count :
    (ran (.decRainfall 0x39 0x30 0x00 0x00) State.reset).decOut.word = 12345 := by decide
theorem test_rainfall_unsigned :
    (ran (.decRainfall 0x00 0x00 0x00 0x80) State.reset).decOut.word = 2147483648 := by decide
theorem test_rawcount :
    (ran (.decRawcount 0x78 0x56 0x34 0x12) State.reset).decOut.word = 305419896 := by decide
theorem test_worktime :
    (ran (.decWorktime 0x00 0x01) State.reset).decOut.word = 256 := by decide
theorem test_enc_base :
    (ran (.encBase 25000) State.reset).decOut.byte0 = 0xA8 ∧
      (ran (.encBase 25000) State.reset).decOut.byte1 = 0x61 := by decide
theorem test_enc_window :
    (ran (.encWindow 24) State.reset).decOut.byte0 = 0x18 ∧
      (ran (.encWindow 24) State.reset).decOut.nbytes = 1 := by decide
theorem test_func7 :
    (after (moving (.decoder (sel 7 1 2 3 4 5 6)) State.reset)).decOut.byte1 = 0 := by decide

/-! ## The host adapter and the assembler (2.3, 2.4, 2.6, 2.7, 2.10; binary64 values by their bits) -/

theorem test_version_string : versionString 0xABCD = "10.11.12.13" := by decide
theorem test_rainfall_mm : rainfallMm 12345 = 2469 / 2000 := by
  show mkRat 12345 10000 = 2469 / 2000
  norm_num [Rat.mkRat_eq_div]
theorem test_work_hours : workHours 256 = 64 / 15 := by
  show mkRat 256 60 = 64 / 15
  norm_num [Rat.mkRat_eq_div]
theorem test_rainfall_f64 : rainfallF64 1 = 0x3F1A36E2EB1C432D := by decide
theorem test_rainfall_f64_max : rainfallF64 0xFFFFFFFF = 0x411A36E2EB020C4A := by decide
theorem test_work_hours_f64 : workHoursF64 1 = 0x3F91111111111111 := by decide
theorem test_quantize : baseQuantize 0x3FF3C083126E978D = some 12345 := by decide
theorem test_quantize_tie_away : baseQuantize 0x3F0A36E2EB1C432D = some 1 := by decide
theorem test_quantize_product_rounds : baseQuantize 0x3F23A92A30553261 = some 1 := by decide
theorem test_quantize_negative_zero_code : baseQuantize 0xBF04F8B588E368F1 = some 0 := by decide
theorem test_quantize_refuses_low : baseQuantize 0xBF0A36E2EB1C432D = none := by decide
theorem test_quantize_refuses_high : baseQuantize 0x401A36D5CFAACD9F = none := by decide
theorem test_quantize_refuses_nan : baseQuantize 0x7FF8000000000000 = none := by decide
theorem test_assemble_poll :
    assembleText "POLL cum, win=1, raw, time" = some 0x000001F2 := by decide
theorem test_assemble_poll_hex : assembleText "POLL win=0xFF" = some 0x0000FF22 := by decide
theorem test_assemble_poll_alone : assembleText "POLL" = some 0x00000002 := by decide
theorem test_assemble_setbase_mm : assembleText "SETBASE.MM 1.2345" = some 0x30390003 := by decide
theorem test_assemble_refuses_twice : assembleText "POLL raw, raw" = none := by decide
theorem test_host_initialize :
    hostInitialize ⟨0x310, 0x1234, 0x100C0, 0x3343, 0⟩ = .ok (some 0x1234) ∧
      hostInitialize ⟨0x211, 0, 0xC0, 0x3343, 0⟩ = .error .identityMismatch := ⟨rfl, rfl⟩

/-! ## Witnesses: the hypotheses of each statement can be met together -/

/-- A Transport that answers every read with zeros of the right width and every write with OK. -/
def zeros : Oracle := fun q =>
  match q.kind with
  | .read => .data (List.replicate q.width 0)
  | .write => .ok

theorem zeros_keeps_contract : zeros.keepsContract := by
  rintro ⟨k, a, n⟩
  cases k <;> rfl

/-- The engine's invariants hold in every stable state with nothing in flight. -/
theorem idle_sequencer (f : FsmState) (hf : f ≠ .busy) (w : Option Word) (l : List Move) :
    SequencerInv { idle f with cmd := w, sched := l } := by
  refine ⟨⟨?_, ?_, ?_, ?_, ?_, ?_⟩, ?_, ?_⟩ <;>
    simp [idle, State.reset, State.xfer, Phase.awaitsAnswer, Phase.awaitsSettle, Phase.op,
      expectedXReq, hf]

theorem witness_one_meaning : decode (.cmd 0x0000AB12) = .ok (.poll true false false false 0xAB) ∧
    decode (.cmd 0x00000001) = .ok .init ∧ decode (.cmd 0xFFFF0003) = .ok (.setBase 0xFFFF) := by
  decide

theorem witness_assembled : (Asm.poll [.raw, .win 255]).wf = true ∧
    PollItem.win 255 ∈ [PollItem.raw, .win 255] ∧ (Asm.poll [.raw]).wf = true ∧
    (∀ h, PollItem.win h ∉ [PollItem.raw]) ∧ (Asm.setBase 65536).wf = false := by
  refine ⟨by decide, by decide, by decide, ?_, by decide⟩
  simp

theorem witness_header_edges : 4 ≤ 4 ∧ (9 < 10 + 2 * Kind.cum.index) ∧
    (12 + 2 * Kind.time.index ≤ 18) ∧ (11 < 10 + 2 * Kind.win.index) := by decide

theorem witness_reset_input : (moving .reset inBaseWr).sched = .reset :: [] ∧
    Event.cmd 0 ≠ Event.reset := by decide

theorem witness_engine_moves : engineMoves (offered .ready 1) [] ∧
    engineMoves (moving (.engine (some 2)) (offered .ready 1)) [] :=
  ⟨.inl ⟨rfl, rfl⟩, .inr ⟨some 2, rfl⟩⟩

theorem witness_nothing_offered : engineMoves (idle .uninit) [] ∧ (idle .uninit).fsm ≠ .busy ∧
    (idle .uninit).cmd = none ∧ engineMoves (moving (.engine (some 1)) (idle .unusable)) [] ∧
    (idle .unusable).fsm ≠ .busy ∧ (idle .unusable).cmd = none :=
  ⟨.inl ⟨rfl, rfl⟩, by decide, rfl, .inr ⟨some 1, rfl⟩, by decide, rfl⟩

theorem witness_host_offer : (moving (.host 0x82) inIdRd).sched = .host 0x82 :: [] ∧
    inIdRd.cmd = none ∧ (moving (.host 0x82) (offered .ready 1)).sched = .host 0x82 :: [] ∧
    (offered .ready 1).cmd = some 1 := by decide

theorem witness_step_runs : (offered .unusable 1).fsm ≠ .busy ∧ (offered .unusable 1).cmd = some 1 ∧
    decode (.cmd 1) = .ok .init ∧
    (moving (.decoder (sel 6 0 0 0 0 0 255)) State.reset).sched
      = .decoder (sel 6 0 0 0 0 0 255) :: [] ∧
    decode (.dec (sel 6 0 0 0 0 0 255)) = .ok (.encWindow 255) := by decide

theorem witness_held : ({ inIdRd with cmd := some 0x82 } : State).fsm = .busy ∧
    ({ inIdRd with cmd := some 0x82 } : State).sched.head? ≠ some .reset ∧
    step { inIdRd with cmd := some 0x82 } = .next { inIdRd with cmd := some 0x82 } ∧
    decode (.cmd 0x82) = .ok (.poll false false false true 0) := ⟨by decide, by decide, rfl, by decide⟩

theorem witness_waiting : engineMoves inIdRd [] ∧ inIdRd.fsm = .busy ∧ inIdRd.phase ≠ .select ∧
    engineMoves (moving (.engine none) inWinWr) [] ∧ inWinWr.phase ≠ .select :=
  ⟨.inl ⟨rfl, rfl⟩, rfl, by decide, .inr ⟨none, rfl⟩, by decide⟩

theorem witness_unsolicited :
    (moving (.transport .ok) inIdRd).sched = .transport .ok :: [] ∧
    (∀ q, (moving (.transport .ok) inIdRd).xreq = some q → (TRsp.ok).fits q = false) ∧
    (∀ q, (moving (.transport .err) (idle .ready)).xreq = some q → (TRsp.err).fits q = false) ∧
    (moving .timer inIdRd).sched = .timer :: [] ∧ (moving .timer inIdRd).settle = false := by
  refine ⟨rfl, ?_, ?_, rfl, rfl⟩
  · intro q h; cases h; rfl
  · intro q h; cases h

theorem witness_init_accepted : (idle .uninit).fsm ≠ .busy ∧ (idle .ready).fsm ≠ .busy ∧
    (idle .unusable).fsm ≠ .busy := by decide

theorem witness_poll_accepted : (idle .ready).fsm = .ready ∧
    encode (.poll false false false false 0) = .cmd 0x2 ∧
    encode (.poll true true true true 255) = .cmd 0xFFF2 := by decide

theorem witness_set_base_accepted : (idle .ready).fsm = .ready ∧
    encode (.setBase 0) = .cmd 0x3 ∧ encode (.setBase 0xFFFF) = .cmd 0xFFFF0003 := by decide

theorem witness_reserved : engineMoves (offered .uninit 0x00010002) [] ∧
    (offered .uninit 0x00010002).fsm ≠ .busy ∧
    (offered .uninit 0x00010002).cmd = some 0x00010002 ∧
    decode (.cmd 0x00010002) = .error (.reservedBits 2) :=
  ⟨.inl ⟨rfl, rfl⟩, by decide, rfl, by decide⟩

theorem witness_not_ready : (idle .uninit).fsm = .uninit ∧ (idle .unusable).fsm = .unusable ∧
    encode (.poll true true true true 1) = .cmd 0x1F2 ∧ Instr.poll true true true true 1 ≠ .init ∧
    encode (.setBase 12345) = .cmd 0x30390003 ∧ Instr.setBase 12345 ≠ .init := by decide

theorem witness_identity_read :
    (moving (.transport .err) inIdRd).sched = .transport .err :: [] ∧ inIdRd.phase = .idRd ∧
    inIdRd.xreq = some ⟨.read, 0x00, 4⟩ ∧
    ([0xC0, 0x00, 0x43] : List Byte).length ≠ 4 ∧ ([0xC0, 0, 0x43, 0x73, 0] : List Byte).length ≠ 4 ∧
    ¬ (productId 0xC0 0x00 0x33 = 0x100C0 ∧ vendorId 0x43 0x33 = 0x3343) ∧
    (productId 0xC0 0x00 0x73 = 0x100C0 ∧ vendorId 0x43 0x73 = 0x3343) ∧
    inIdRd.cfg.readVersionAtInit = true ∧
    ({ inIdRd with cfg := ⟨12, false⟩ } : State).cfg.readVersionAtInit = false := by decide

theorem witness_version_read :
    (moving (.transport (.data [0x34])) inVerRd).sched = .transport (.data [0x34]) :: [] ∧
    inVerRd.phase = .verRd ∧ inVerRd.xreq = some ⟨.read, 0x0A, 2⟩ ∧ TRsp.data [0x34] ≠ .ok ∧
    ([0x34] : List Byte).length ≠ 2 ∧ TRsp.err ≠ .ok ∧ TRsp.data [0x34, 0x12] ≠ .ok := by decide

theorem witness_select : engineMoves (moving (.engine none) (inSelect 0)) [] ∧
    (inSelect 0).fsm = .busy ∧ (inSelect 0).phase = .select ∧ (inSelect 0).pending = 0 ∧
    (inSelect 8).pending ≠ 0 ∧ (inSelect 1).pending.getLsbD Kind.cum.index = true ∧
    (inSelect 2).pending.getLsbD Kind.win.index = true ∧
    (inSelect 4).pending.getLsbD Kind.raw.index = true ∧
    (inSelect 8).pending.getLsbD Kind.time.index = true :=
  ⟨.inr ⟨none, rfl⟩, by decide, by decide, by decide, by decide, by decide, by decide, by decide,
    by decide⟩

theorem witness_measurement_read :
    (moving (.transport .err) (inMeasRd .time 0x18 2)).sched = .transport .err :: [] ∧
    (inMeasRd .time 0x18 2).phase = .measRd ∧ (inMeasRd .time 0x18 2).meas ≠ .win ∧
    (inMeasRd .time 0x18 2).xreq = some ⟨.read, 0x18, 2⟩ ∧
    (TRsp.err).fits ⟨.read, 0x18, 2⟩ = true ∧ (TRsp.data [0x3C]).fits ⟨.read, 0x18, 2⟩ = true ∧
    (TRsp.data [0x3C, 0]).fits ⟨.read, 0x18, 2⟩ = true ∧
    (TRsp.data [1, 2, 3, 4]).fits ⟨.read, 0x10, 4⟩ = true := by decide

theorem witness_write_answers :
    (moving (.transport .ok) inWinWr).sched = .transport .ok :: [] ∧
    inWinWr.xreq = some ⟨.write, 0x26, 1⟩ ∧ inWinWr.phase = .winWr ∧
    (moving (.transport .err) inBaseWr).sched = .transport .err :: [] ∧
    inBaseWr.xreq = some ⟨.write, 0x28, 2⟩ ∧ inBaseWr.phase = .baseWr := by decide

theorem witness_window_settle : (moving .timer (inWinSettle true)).sched = .timer :: [] ∧
    (inWinSettle true).phase = .winSettle ∧ (inWinSettle true).settle = true ∧
    (inWinSettle true).wrOk = true ∧ (inWinSettle false).wrOk = false := by decide

theorem witness_window_read : (moving (.transport .err) inWinRd).sched = .transport .err :: [] ∧
    inWinRd.phase = .winRd ∧ inWinRd.xreq = some ⟨.read, 0x0C, 4⟩ ∧
    (TRsp.err).fits ⟨.read, 0x0C, 4⟩ = true ∧ (TRsp.data []).fits ⟨.read, 0x0C, 4⟩ = true := by
  decide

theorem witness_base_settle : (moving .timer (inBaseSettle false)).sched = .timer :: [] ∧
    (inBaseSettle false).phase = .baseSettle ∧ (inBaseSettle false).settle = true := by decide

theorem witness_identity_match (s : State) : exec (.decIdentity 0xC0 0x00 0x43 0x73) s
    = .next { s with decOut := decIdentityOut 0xC0 0x00 0x43 0x73 } := rfl

theorem witness_identity_flip : (31 < 32 ∧ le32 0xC0 0x00 0x43 0xF3 = 0x734300C0 ^^^ (1#32 <<< 31)) ∧
    (0 < 32 ∧ le32 0xC1 0x00 0x43 0x73 = 0x734300C0 ^^^ (1#32 <<< 0)) := by decide

theorem witness_reserved_function :
    (moving (.decoder (sel 7 1 2 3 4 5 6)) State.reset).sched = .decoder (sel 7 1 2 3 4 5 6) :: [] ∧
    (sel 7 1 2 3 4 5 6).func = 7 := by decide

theorem witness_same_inputs : sameInputs (sel 1 0x34 0x12 3 4 5 6) (sel 1 0x34 0x12 7 8 9 10) ∧
    sameInputs (sel 6 1 2 3 4 5 255) (sel 6 9 9 9 9 9 255) := by
  constructor <;> unfold sameInputs <;> decide

theorem witness_host_error : step (offered .ready 0) = .next (reject .badCommand 0 (offered .ready 0)) ∧
    (offered .ready 0).sched.head? ≠ some .reset ∧
    (reject .badCommand 0 (offered .ready 0)).hostErr = true := ⟨rfl, by decide, rfl⟩

theorem witness_contract_kept : step (offered .ready 0x2)
      = .next (acceptPoll false false false false 0 (offered .ready 0x2)) ∧
    (offered .ready 0x2).hostErr = false ∧
    (∀ w, (offered .ready 0x2).cmd = some w → hostKeepsContract w (offered .ready 0x2) = true) := by
  refine ⟨rfl, rfl, ?_⟩
  intro w h
  cases h
  decide

theorem witness_engine_invariant : EngineInv (offered .unusable 1) ∧
    step (offered .unusable 1) = .next (acceptInit (offered .unusable 1)) ∧
    (offered .unusable 1).fsm = .unusable ∧ (acceptInit (offered .unusable 1)).fsm ≠ .unusable :=
  ⟨(idle_sequencer .unusable (by decide) (some 1) []).engine, rfl, rfl, by decide⟩

/-- A busy state that waits for the identity read's answer meets the engine's invariants. -/
theorem id_rd_invariant (c : Config) (m : Move) : EngineInv { moving m inIdRd with cfg := c } := by
  constructor <;>
    simp [moving, inIdRd, busy, State.reset, State.xfer, Phase.awaitsAnswer, Phase.awaitsSettle,
      Phase.op]

theorem witness_operating_states :
    step (moving (.transport .err) inIdRd) = .next (idRdStep .err inIdRd) ∧
    (idRdStep .err inIdRd).fsm = .unusable ∧
    step (moving (.transport (.data [0xC0, 0x00, 0x43, 0x73])) inIdRd)
      = .next (idRdStep (.data [0xC0, 0x00, 0x43, 0x73]) inIdRd) ∧
    (idRdStep (.data [0xC0, 0x00, 0x43, 0x73]) inIdRd).phase = .verRd ∧
    (idRdStep (.data [0xC0, 0x00, 0x43, 0x73]) { inIdRd with cfg := ⟨12, false⟩ }).fsm = .ready ∧
    (acceptPoll true true true true 1 (idle .ready)).fsm = .busy :=
  ⟨rfl, by decide, rfl, by decide, by decide, rfl⟩

theorem witness_poll_in_progress : EngineInv (inSelect 0) ∧ (inSelect 0).fsm = .busy ∧
    (inSelect 0).curOp = 2 ∧ (inSelect 0).sched.head? ≠ some .reset ∧
    step (inSelect 0) = .next (selectStep none (inSelect 0)) := by
  refine ⟨⟨by decide, by decide, by decide, by decide, ?_, by decide⟩, rfl, rfl, by decide, rfl⟩
  intro op h
  cases h
  rfl

theorem witness_listed_request : step (offered .ready 1) = .next (acceptInit (offered .ready 1)) ∧
    Event.treq (.read 0x00 4) ∈ (acceptInit (offered .ready 1)).trace := ⟨rfl, by decide⟩

theorem witness_answer_frame : (moving (.transport .err) inIdRd).sched = .transport .err :: [] ∧
    step (moving (.transport .err) inIdRd) = .next (idRdStep .err inIdRd) := ⟨rfl, rfl⟩

theorem witness_machine_invariant : MachineInv (idle .ready) ∧
    step (idle .ready) = .next (idle .ready) := by
  refine ⟨⟨idle_sequencer .ready (by decide) none [], ?_, ?_⟩, rfl⟩
  · refine ⟨rfl, rfl, rfl, ?_, ?_, ?_, ?_, rfl⟩
    · intro w h; cases h
    · intro h; cases h
    · intro h; cases h
    · intro h; cases h
  · exact ⟨rfl, rfl, rfl, rfl, rfl, rfl⟩

theorem witness_run : Sys2Proof.core.run 1 { State.reset with
      sched := [.engine none], cmd := some 1, cfg := ⟨12, false⟩ }
    = .next (acceptInit { State.reset with sched := [], cmd := some 1, cfg := ⟨12, false⟩ }) := rfl

theorem witness_progress : zeros.keepsContract ∧ SequencerInv inIdRd ∧ inIdRd.fsm = .busy := by
  refine ⟨zeros_keeps_contract, ⟨⟨by decide, by decide, by decide, by decide, ?_, by decide⟩, rfl, ?_⟩,
    rfl⟩
  · intro op h; cases h; rfl
  · intro h; cases h

theorem witness_closed_init : zeros.keepsContract ∧ SequencerInv (offered .uninit 1) ∧
    (offered .uninit 1).fsm ≠ .busy ∧ (offered .uninit 1).cmd = some 0x00000001 ∧
    decode (.cmd 1) = .ok .init :=
  ⟨zeros_keeps_contract, idle_sequencer .uninit (by decide) (some 1) [], by decide, rfl, by decide⟩

theorem witness_closed_poll : zeros.keepsContract ∧
    SequencerInv (offered .ready (pollWord true true true true 255)) ∧
    (offered .ready (pollWord true true true true 255)).fsm = .ready ∧
    (offered .ready (pollWord true true true true 255)).cmd
      = some (pollWord true true true true 255) :=
  ⟨zeros_keeps_contract, idle_sequencer .ready (by decide) (some _) [], rfl, rfl⟩

/-- Zeros, but every request of RAW_DATA fails. -/
def rawFails : Oracle := fun q => if q.addr = 0x14 then .err else zeros q

theorem witness_isolation : rawFails.keepsContract ∧ rawFails ⟨.read, 0x14, 4⟩ ≠ zeros ⟨.read, 0x14, 4⟩ ∧
    (∀ q : XReq, q.addr = Kind.win.addr ∨ (Kind.win = .win ∧ q.addr = 0x26) →
      zeros q = rawFails q) := by
  refine ⟨?_, by decide, ?_⟩
  · rintro ⟨k, a, n⟩
    by_cases h : a = 20#8 <;> cases k <;> simp [rawFails, h, zeros, TRsp.fits, TRsp.asRead, TRsp.asWrite]
  · rintro ⟨k, a, n⟩ (h | ⟨-, h⟩) <;> (simp only at h; subst h; rfl)

theorem witness_closed_set_base : zeros.keepsContract ∧
    SequencerInv (offered .ready (setBaseWord 0xFFFF)) ∧
    (offered .ready (setBaseWord 0xFFFF)).fsm = .ready ∧
    (offered .ready (setBaseWord 0xFFFF)).cmd = some (setBaseWord 0xFFFF) :=
  ⟨zeros_keeps_contract, idle_sequencer .ready (by decide) (some _) [], rfl, rfl⟩

theorem witness_rounding : 0 < 10000 ∧ 12345 < 2 ^ 1023 * 10000 ∧ 0 < 60 ∧
    0xFFFFFFFF < 2 ^ 1023 * 60 := by
  have h : 2 ^ 27 ≤ 2 ^ 1023 := Nat.pow_le_pow_right (by decide) (by decide)
  generalize 2 ^ 1023 = x at *
  omega

/-- 1.2345, 0.00005, -0.00004, -0.00005, 6.55355 and 2^1023 (2.7). -/
theorem witness_base_code :
    f64Value 0x7FF8000000000000 = .nan ∧ f64Value 0xFFF0000000000000 = .inf true ∧
    f64Value 0x3FF3C083126E978D = .finite false 0x13C083126E978D (-52) ∧
    f64Value (mulF64 false 0x13C083126E978D (-52) 10000) = .finite false 0x181C8000000000 (-39) ∧
    f64Value (mulF64 true 0x14F8B588E368F1 (-67) 10000) = .finite true 0x1999999999999A (-54) ∧
    f64Value (mulF64 true 0x1A36E2EB1C432D (-67) 10000) = .finite true (2 ^ 52) (-53) ∧
    f64Value (mulF64 false 0x1A36D5CFAACD9F (-50) 10000) = .finite false 0x1FFFF000000001 (-37) ∧
    f64Value 0x7FE0000000000000 = .finite false (2 ^ 52) 971 := by decide

theorem witness_base_code_range :
    (-1 / 2 : Rat) < dyadicRat true 0x1999999999999A (-54) ∧
    dyadicRat true 0x1999999999999A (-54) < 0 ∧
    dyadicRat true (2 ^ 52) (-53) ≤ -1 / 2 ∧
    (131071 / 2 : Rat) ≤ dyadicRat false 0x1FFFF000000001 (-37) := by
  norm_num [dyadicRat]

theorem witness_host_results :
    ((0x310 : Word).extractLsb' 0 4 = 0 ∧ (0x310 : Word).getLsbD 8 = true) ∧
    ((0x210 : Word).extractLsb' 0 4 = 0 ∧ (0x210 : Word).getLsbD 8 = false) ∧
    (0x211 : Word).extractLsb' 0 4 = 1 ∧ (0x12 : Word).extractLsb' 0 4 = 2 ∧
    (0x13 : Word).extractLsb' 0 4 = 3 ∧
    (0x10020 : Word).extractLsb' (10 + 2 * Kind.time.index) 2 = 1 ∧
    (0x30020 : Word).extractLsb' (10 + 2 * Kind.time.index) 2 ≠ 1 := by decide

end Sys2Proof.Tests
end

section
/-! What a step does to the history of the machine, said once: every transition keeps the configuration
and adds at most two events to the trace (R12, R37, R126). -/

namespace Sys2Proof.Machine

/-- The configuration of `s'` is that of `s`, and its trace is the trace of `s` with at most two events
added (R12, R37). -/
def ExtendsHistory (s s' : State) : Prop :=
  s'.cfg = s.cfg ∧ ∃ es, s'.trace = es ++ s.trace ∧ es.length ≤ 2

namespace ExtendsHistory

theorem of_trace_eq {s s' : State} (hc : s'.cfg = s.cfg) (ht : s'.trace = s.trace) :
    ExtendsHistory s s' :=
  ⟨hc, [], ht, Nat.zero_le 2⟩

theorem of_trace_cons {s s' : State} {e : Event} (hc : s'.cfg = s.cfg)
    (ht : s'.trace = e :: s.trace) : ExtendsHistory s s' :=
  ⟨hc, [e], ht, Nat.le_succ 1⟩

theorem of_trace_cons_cons {s s' : State} {e f : Event} (hc : s'.cfg = s.cfg)
    (ht : s'.trace = e :: f :: s.trace) : ExtendsHistory s s' :=
  ⟨hc, [e, f], ht, Nat.le_refl 2⟩

end ExtendsHistory

open ExtendsHistory

/-- SELECT adds one event: the response that ends the POLL, or the request that starts a measurement
(R111). -/
theorem selectStep_extendsHistory (pick : Option Nat) (s : State) :
    ExtendsHistory s (selectStep pick s) := by
  rcases selectStep_cases pick s with ⟨-, h⟩ | ⟨k, n, -, h⟩
  · rw [h]
    exact of_trace_cons rfl rfl
  · rw [h]
    cases k <;> exact of_trace_cons rfl rfl

/-- ID_RD adds the answer, and the response or the version read (R104). -/
theorem idRdStep_extendsHistory (r : ReadRsp) (s : State) : ExtendsHistory s (idRdStep r s) := by
  obtain ⟨ρ, -, ⟨-, -, h⟩ | ⟨-, h⟩ | ⟨-, -, h⟩⟩ := idRdStep_cases r s <;>
    rw [h] <;> exact of_trace_cons_cons rfl rfl

/-- WIN_SETTLE adds the timer's signal and, after a good write, the window read (R114). -/
theorem winSettleStep_extendsHistory (s : State) : ExtendsHistory s (winSettleStep s) := by
  rcases winSettleStep_cases s with ⟨-, h⟩ | ⟨-, ρ, -, h⟩
  · rw [h]
    exact of_trace_cons_cons rfl rfl
  · rw [h]
    exact of_trace_cons rfl rfl

/-- Every transition keeps the configuration and adds at most two events (R12, R37). -/
theorem Transition.extendsHistory {m : Option Move} {s s' : State} (h : Transition m s s') :
    ExtendsHistory s s' := by
  cases h with
  | stay | offer | decoder => exact of_trace_eq rfl rfl
  | poll | reset => exact of_trace_cons rfl rfl
  | init | setBase | pollNotReady | setBaseNotReady | reserved | winWr | baseWr =>
    exact of_trace_cons_cons rfl rfl
  | select pick => exact selectStep_extendsHistory pick s
  | idRd r => exact idRdStep_extendsHistory r s
  | winSettle => exact winSettleStep_extendsHistory s
  | verRd r =>
    obtain ⟨ρ, -, e⟩ := verRdStep_eq r s
    rw [e]
    exact of_trace_cons_cons rfl rfl
  | measRd r =>
    obtain ⟨ρ, -, e⟩ := measRdStep_eq r s
    rw [e]
    exact of_trace_cons rfl rfl
  | winRd r =>
    obtain ⟨ρ, -, e⟩ := winRdStep_eq r s
    rw [e]
    exact of_trace_cons rfl rfl
  | baseSettle =>
    obtain ⟨ρ, -, e⟩ := baseSettleStep_eq s
    rw [e]
    exact of_trace_cons_cons rfl rfl

/-- Settles O38: `step_total` gives the transition a step takes, and a transition extends the history of
the state without its move, which has the configuration and the trace of the state itself. -/
theorem everyStepAnswersNext : Obligations.EveryStepAnswersNext := by
  unfold Obligations.EveryStepAnswersNext
  intro s
  obtain ⟨s', hs, hT⟩ := step_total s
  have hext : ExtendsHistory (setSched s.sched.tail s) s' := hT.extendsHistory
  exact ⟨s', hs, hext⟩

end Sys2Proof.Machine
end

section
/-! What the command decoder read from a word, said once for each of the three commands: the fields
hold the operands, and the word is the command's own encoding (30_encoding.md R64 to R66, R79). -/

namespace Sys2Proof.Machine

/-- A bit of a word, read from a field of known value. -/
theorem getLsbD_of_extractLsb'_eq {w : Word} {lo n : Nat} {x : BitVec n}
    (h : w.extractLsb' lo n = x) {i : Nat} (hlo : lo ≤ i) (hhi : i < lo + n) :
    w.getLsbD i = x.getLsbD (i - lo) := by
  rw [← h, BitVec.getLsbD_extractLsb', Nat.add_sub_cancel' hlo,
    decide_eq_true (by omega : i - lo < n), Bool.true_and]

/-- What a word read as INIT holds (R64). -/
theorem decodeCmd_init_fields {w : Word} (h : decodeCmd w = .ok .init) :
    opField w = 1 ∧ w.extractLsb' 4 28 = 0 := by
  unfold decodeCmd at h
  split at h
  · split at h
    · exact ⟨‹_›, ‹_›⟩
    · cases h
  · split_ifs at h <;> cases h

/-- What a word read as a POLL holds (R65). -/
theorem decodeCmd_poll_fields {w : Word} {c wi r t : Bool} {hr : Byte}
    (h : decodeCmd w = .ok (.poll c wi r t hr)) :
    opField w = 2 ∧ w.extractLsb' 16 16 = 0 ∧ w.getLsbD 4 = c ∧ w.getLsbD 5 = wi ∧
      w.getLsbD 6 = r ∧ w.getLsbD 7 = t ∧ w.extractLsb' 8 8 = hr := by
  unfold decodeCmd at h
  split_ifs at h <;> cases h
  exact ⟨‹_›, ‹_›, rfl, rfl, rfl, rfl, rfl⟩

/-- What a word read as a SET_BASE holds (R66). -/
theorem decodeCmd_setBase_fields {w : Word} {c : Half} (h : decodeCmd w = .ok (.setBase c)) :
    opField w = 3 ∧ w.extractLsb' 4 12 = 0 ∧ w.extractLsb' 16 16 = c := by
  unfold decodeCmd at h
  split_ifs at h <;> cases h
  exact ⟨‹_›, ‹_›, rfl⟩

/-- The word read as INIT is INIT's encoding (R64). -/
theorem initWord_eq_of_decodeCmd {w : Word} (h : decodeCmd w = .ok .init) : initWord = w := by
  obtain ⟨hop, hrest⟩ := decodeCmd_init_fields h
  apply BitVec.eq_of_getLsbD_eq
  intro i hi
  rcases Nat.lt_or_ge i 4 with hlow | hhigh
  · rw [getLsbD_of_extractLsb'_eq hop (Nat.zero_le i) (by omega)]
    interval_cases i <;> rfl
  · rw [getLsbD_of_extractLsb'_eq hrest hhigh (by omega)]
    interval_cases i <;> rfl

/-- The word read as a POLL is the encoding of that POLL (R65). -/
theorem pollWord_eq_of_decodeCmd {w : Word} {c wi r t : Bool} {hr : Byte}
    (h : decodeCmd w = .ok (.poll c wi r t hr)) : pollWord c wi r t hr = w := by
  obtain ⟨hop, htop, rfl, rfl, rfl, rfl, hhr⟩ := decodeCmd_poll_fields h
  apply BitVec.eq_of_getLsbD_eq
  intro i hi
  rcases Nat.lt_or_ge i 4 with h4 | h4
  · rw [getLsbD_of_extractLsb'_eq hop (Nat.zero_le i) (by omega)]
    interval_cases i <;> simp [pollWord, flagAt]
  rcases Nat.lt_or_ge i 8 with h8 | h8
  · interval_cases i <;> simp [pollWord, flagAt]
  rcases Nat.lt_or_ge i 16 with h16 | h16
  · rw [getLsbD_of_extractLsb'_eq hhr h8 (by omega)]
    interval_cases i <;> simp [pollWord, flagAt]
  · rw [getLsbD_of_extractLsb'_eq htop h16 (by omega)]
    interval_cases i <;> simp [pollWord, flagAt]

/-- The word read as a SET_BASE is the encoding of that SET_BASE (R66). -/
theorem setBaseWord_eq_of_decodeCmd {w : Word} {c : Half} (h : decodeCmd w = .ok (.setBase c)) :
    setBaseWord c = w := by
  obtain ⟨hop, hmid, hc⟩ := decodeCmd_setBase_fields h
  apply BitVec.eq_of_getLsbD_eq
  intro i hi
  rcases Nat.lt_or_ge i 4 with h4 | h4
  · rw [getLsbD_of_extractLsb'_eq hop (Nat.zero_le i) (by omega)]
    interval_cases i <;> simp [setBaseWord]
  rcases Nat.lt_or_ge i 16 with h16 | h16
  · rw [getLsbD_of_extractLsb'_eq hmid h4 (by omega)]
    interval_cases i <;> simp [setBaseWord]
  · rw [getLsbD_of_extractLsb'_eq hc h16 (by omega)]
    interval_cases i <;> simp [setBaseWord]

end Sys2Proof.Machine
end

section
/-! The invariants of the engine's registers (10_state.md R18, R20, R24, R34, R36): what they give
in a stable state and in each phase, what establishes them, and that every transition keeps them. -/

namespace Sys2Proof.Machine

namespace EngineInv

/-- SETTLE is armed as the phase says (R36). -/
theorem settle_of_phase {s : State} {p : Phase} (h : EngineInv s) (hp : s.phase = p) :
    s.settle = p.awaitsSettle := by
  rw [Bool.eq_iff_iff, h.settle_iff, hp]

/-- XFER is set as the phase says (R36). -/
theorem xfer_of_phase {s : State} {p : Phase} (h : EngineInv s) (hp : s.phase = p) :
    s.xfer = p.awaitsAnswer := by
  rw [Bool.eq_iff_iff, h.xfer_iff, hp]

/-- No request is outstanding in a phase that waits for no answer (R36). -/
theorem xreq_of_phase {s : State} {p : Phase} (h : EngineInv s) (hp : s.phase = p)
    (hw : p.awaitsAnswer = false) : s.xreq = none := by
  have hx : s.xreq.isSome = false := (h.xfer_of_phase hp).trans hw
  simpa using hx

/-- A phase other than NONE is a phase of a busy engine (R36). -/
theorem busy_of_phase {s : State} {p : Phase} (h : EngineInv s) (hp : s.phase = p)
    (hn : p ≠ .none) : s.fsm = .busy :=
  h.busy_iff.mpr (hp ▸ hn)

/-- CUR_OP is the OP of the command the phase belongs to (R36). -/
theorem curOp_of_phase {s : State} {p : Phase} {op : BitVec 4} (h : EngineInv s)
    (hp : s.phase = p) (ho : p.op = some op) : s.curOp = op :=
  h.cur_op op (hp ▸ ho)

/-- In the phases of INIT and SET_BASE nothing is pending (R36). -/
theorem pending_of_phase {s : State} {p : Phase} {op : BitVec 4} (h : EngineInv s)
    (hp : s.phase = p) (ho : p.op = some op) (hne : op ≠ 2) : s.pending = 0 :=
  h.pending_zero (.inl (h.curOp_of_phase hp ho ▸ hne))

/-- A stable engine is in no phase (R36). -/
theorem phase_of_stable {s : State} (h : EngineInv s) (hf : s.fsm ≠ .busy) : s.phase = .none := by
  by_contra hp
  exact hf (h.busy_iff.mpr hp)

/-- The invariants in a stable state: nothing is in flight and nothing is pending. -/
theorem of_stable {s : State} (hf : s.fsm ≠ .busy) (hp : s.phase = .none) (hx : s.xreq = none)
    (hs : s.settle = false) (h0 : s.pending = 0) : EngineInv s where
  busy_iff := by simp [hf, hp]
  xfer_iff := by simp [State.xfer, hx, hp, Phase.awaitsAnswer]
  settle_iff := by simp [hs, hp, Phase.awaitsSettle]
  not_both := by simp [hs]
  cur_op := by simp [hp, Phase.op]
  pending_zero := fun _ => h0

/-- The invariants in a busy state: the registers are what the phase says. -/
theorem of_busy {s : State} {op : BitVec 4} (hf : s.fsm = .busy) (hop : s.phase.op = some op)
    (hc : s.curOp = op) (hx : s.xfer = s.phase.awaitsAnswer) (hs : s.settle = s.phase.awaitsSettle)
    (h0 : op ≠ 2 → s.pending = 0) : EngineInv s where
  busy_iff := by
    refine iff_of_true hf fun hp => ?_
    simp [hp, Phase.op] at hop
  xfer_iff := by rw [hx]
  settle_iff := by rw [hs]
  not_both := by
    rw [hx, hs]
    cases s.phase <;> simp [Phase.awaitsAnswer, Phase.awaitsSettle]
  cur_op := fun o ho => by
    rw [hop] at ho
    exact hc.trans (Option.some.inj ho)
  pending_zero := by
    rintro (h | h)
    · exact h0 (hc ▸ h)
    · exact absurd hf h

/-- `finish` leaves a stable state, once the answer or the signal is taken (R101). -/
theorem finish {s : State} {target : FsmState} (ht : target ≠ .busy) (hx : s.xreq = none)
    (hs : s.settle = false) : EngineInv (finish target s) :=
  of_stable ht rfl hx hs rfl

/-- SELECT keeps the invariants of R36 (R111). -/
theorem selectStep {s : State} (h : EngineInv s) (hp : s.phase = .select) (pick : Option Nat) :
    EngineInv (selectStep pick s) := by
  have hx : s.xreq = none := h.xreq_of_phase hp rfl
  have hs : s.settle = false := h.settle_of_phase hp
  have hf : s.fsm = .busy := h.busy_of_phase hp (by decide)
  have hc : s.curOp = 2 := h.curOp_of_phase hp rfl
  rcases selectStep_cases pick s with ⟨-, e⟩ | ⟨k, n, -, e⟩
  · rw [e]
    exact finish (by decide) hx hs
  · rw [e]
    cases k <;> exact of_busy hf rfl hc rfl hs (absurd rfl)

/-- ID_RD keeps the invariants of R36 (R104). -/
theorem idRdStep {s : State} (h : EngineInv s) (hp : s.phase = .idRd) (r : ReadRsp) :
    EngineInv (idRdStep r s) := by
  have hs : s.settle = false := h.settle_of_phase hp
  obtain ⟨ρ, -, ⟨-, -, e⟩ | ⟨-, e⟩ | ⟨-, -, e⟩⟩ := idRdStep_cases r s
  · rw [e]
    exact finish (by decide) rfl hs
  · rw [e]
    exact finish (by decide) rfl hs
  · rw [e]
    exact of_busy (h.busy_of_phase hp (by decide)) rfl (h.curOp_of_phase hp rfl) rfl hs
      fun _ => h.pending_of_phase hp rfl (by decide)

/-- WIN_SETTLE keeps the invariants of R36 (R114). -/
theorem winSettleStep {s : State} (h : EngineInv s) (hp : s.phase = .winSettle) :
    EngineInv (winSettleStep s) := by
  have hf : s.fsm = .busy := h.busy_of_phase hp (by decide)
  have hc : s.curOp = 2 := h.curOp_of_phase hp rfl
  rcases winSettleStep_cases s with ⟨-, e⟩ | ⟨-, ρ, -, e⟩
  · rw [e]
    exact of_busy hf rfl hc rfl rfl (absurd rfl)
  · rw [e]
    have hx : s.xfer = false := h.xfer_of_phase hp
    exact of_busy hf rfl hc hx rfl (absurd rfl)

end EngineInv

/-- Every transition keeps the invariants of R36. -/
theorem Transition.keeps_engineInv {m : Option Move} {s s' : State} (hT : Transition m s s')
    (h : EngineInv s) : EngineInv s' := by
  cases hT with
  | stay => exact h
  | offer | decoder | pollNotReady | setBaseNotReady | reserved => exact { h with }
  | init w hm hw hd hf =>
    have hs : s.settle = false := h.settle_of_phase (h.phase_of_stable hf)
    exact .of_busy rfl rfl rfl rfl hs fun _ => h.pending_zero (.inr hf)
  | poll w c wi r t hr hm hw hd hf =>
    have hp : s.phase = .none := h.phase_of_stable (by simp [hf])
    have hx : s.xfer = false := h.xfer_of_phase hp
    have hs : s.settle = false := h.settle_of_phase hp
    exact .of_busy rfl rfl rfl hx hs (absurd rfl)
  | setBase w c hm hw hd hf =>
    have hb : s.fsm ≠ .busy := by simp [hf]
    have hs : s.settle = false := h.settle_of_phase (h.phase_of_stable hb)
    exact .of_busy rfl rfl rfl rfl hs fun _ => h.pending_zero (.inr hb)
  | select pick hm hf hp => exact h.selectStep hp pick
  | idRd r q hm hp => exact h.idRdStep hp r
  | verRd r q hm hp =>
    obtain ⟨ρ, -, e⟩ := verRdStep_eq r s
    rw [e]
    exact .finish (by decide) rfl (h.settle_of_phase hp)
  | measRd r q hm hp =>
    obtain ⟨ρ, -, e⟩ := measRdStep_eq r s
    rw [e]
    have hs : s.settle = false := h.settle_of_phase hp
    exact .of_busy (h.busy_of_phase hp (by decide)) rfl (h.curOp_of_phase hp rfl) rfl hs
      (absurd rfl)
  | winRd r q hm hp =>
    obtain ⟨ρ, -, e⟩ := winRdStep_eq r s
    rw [e]
    have hs : s.settle = false := h.settle_of_phase hp
    exact .of_busy (h.busy_of_phase hp (by decide)) rfl (h.curOp_of_phase hp rfl) rfl hs
      (absurd rfl)
  | winWr r q hm hp =>
    exact .of_busy (h.busy_of_phase hp (by decide)) rfl (h.curOp_of_phase hp rfl) rfl rfl
      (absurd rfl)
  | baseWr r q hm hp =>
    exact .of_busy (h.busy_of_phase hp (by decide)) rfl (h.curOp_of_phase hp rfl) rfl rfl
      fun _ => h.pending_of_phase hp rfl (by decide)
  | winSettle hm hp => exact h.winSettleStep hp
  | baseSettle hm hp =>
    obtain ⟨ρ, -, e⟩ := baseSettleStep_eq s
    rw [e]
    exact .finish (by decide) (h.xreq_of_phase hp rfl) rfl
  | reset => exact .of_stable nofun rfl rfl rfl rfl

/-- The move that leaves the schedule changes nothing the invariants of R36 speak of. -/
theorem EngineInv.setSched {s : State} (h : EngineInv s) (l : List Move) :
    EngineInv (setSched l s) :=
  { h with }

/-- Settles O46: every transition keeps the six invariants, and the schedule is no part of them. -/
theorem engineInvariantIsKept : Obligations.EngineInvariantIsKept := by
  unfold Obligations.EngineInvariantIsKept
  intro s s' h hs
  exact step_keeps EngineInv (fun _ l h => h.setSched l)
    (fun _ _ _ hT h => hT.keeps_engineInv h) h hs

/-- Settles O45: after reset the engine is stable, with nothing in flight and nothing pending. -/
theorem engineInvariantAtReset : Obligations.EngineInvariantAtReset := by
  unfold Obligations.EngineInvariantAtReset
  exact .of_stable (by decide) rfl rfl rfl rfl

/-- Settles O7: `State.reset` is written out with these values. -/
theorem resetValues : Obligations.ResetValues := by
  unfold Obligations.ResetValues
  exact ⟨rfl, rfl, rfl, rfl, rfl, rfl, rfl, rfl, rfl, rfl, rfl, rfl, rfl, rfl, rfl⟩

/-- Settles O60: each code is an arm of `FsmState.bits`, `Phase.bits` or `Kind.index`. -/
theorem sequencerCodes : Obligations.SequencerCodes := by
  unfold Obligations.SequencerCodes
  refine ⟨?fsm, ?phase, ?kind⟩
  case fsm => exact ⟨rfl, rfl, rfl, rfl⟩
  case phase => exact ⟨rfl, rfl, rfl, rfl, rfl, rfl, rfl, rfl, rfl, rfl⟩
  case kind => exact ⟨rfl, rfl, rfl, rfl, rfl, rfl, rfl, rfl⟩

/-- Every transition leaves in XREQ the request its phase waits for, and MEAS_RD is entered with a
kind in MEAS that one read measures (R18, R20, R24). -/
theorem Transition.xreq_and_meas {m : Option Move} {s s' : State} (hT : Transition m s s')
    (h : SequencerInv s) :
    s'.xreq = expectedXReq s' ∧ (s'.phase = .measRd → s'.meas ≠ .win) := by
  have he := h.engine
  cases hT with
  | stay | offer | decoder | pollNotReady | setBaseNotReady | reserved =>
    exact ⟨h.xreq_eq, h.meas_single⟩
  | init | setBase | winWr | baseWr | reset => exact ⟨rfl, nofun⟩
  | poll w c wi r t hr hm hw hd hf =>
    exact ⟨he.xreq_of_phase (he.phase_of_stable (by simp [hf])) rfl, nofun⟩
  | select pick hm hf hp =>
    rcases selectStep_cases pick s with ⟨-, e⟩ | ⟨k, n, -, e⟩
    · rw [e]
      exact ⟨he.xreq_of_phase hp rfl, nofun⟩
    · rw [e]
      cases k <;> exact ⟨rfl, by simp [startMeasurement]⟩
  | idRd r =>
    obtain ⟨ρ, -, ⟨-, -, e⟩ | ⟨-, e⟩ | ⟨-, -, e⟩⟩ := idRdStep_cases r s <;>
      rw [e] <;> exact ⟨rfl, nofun⟩
  | verRd r =>
    obtain ⟨ρ, -, e⟩ := verRdStep_eq r s
    rw [e]
    exact ⟨rfl, nofun⟩
  | measRd r =>
    obtain ⟨ρ, -, e⟩ := measRdStep_eq r s
    rw [e]
    exact ⟨rfl, nofun⟩
  | winRd r =>
    obtain ⟨ρ, -, e⟩ := winRdStep_eq r s
    rw [e]
    exact ⟨rfl, nofun⟩
  | winSettle hm hp =>
    rcases winSettleStep_cases s with ⟨-, e⟩ | ⟨-, ρ, -, e⟩
    · rw [e]
      exact ⟨rfl, nofun⟩
    · rw [e]
      exact ⟨he.xreq_of_phase hp rfl, nofun⟩
  | baseSettle hm hp =>
    obtain ⟨ρ, -, e⟩ := baseSettleStep_eq s
    rw [e]
    exact ⟨he.xreq_of_phase hp rfl, nofun⟩

/-- Every transition keeps the engine's invariants with what XREQ and MEAS hold in each phase. -/
theorem Transition.keeps_sequencerInv {m : Option Move} {s s' : State} (hT : Transition m s s')
    (h : SequencerInv s) : SequencerInv s' :=
  ⟨hT.keeps_engineInv h.engine, (hT.xreq_and_meas h).1, (hT.xreq_and_meas h).2⟩

end Sys2Proof.Machine
end

section
/-! HOSTERR (10_state.md R27): the transitions that reject a word set it, and every other one but
the reset input leaves it as it was. -/

namespace Sys2Proof.Machine

/-- A stable engine answers the word `w` with the rejection `st`: BAD_COMMAND for a reserved word
(R99), NOT_READY for a POLL or SET_BASE in UNINIT or UNUSABLE (R100). -/
def rejectedAs (st : Status) (w : Word) (s : State) : Prop :=
  (st = .badCommand ∧ s.fsm ≠ .busy ∧ ∃ e, decode (.cmd w) = .error e) ∨
    (st = .notReady ∧ (s.fsm = .uninit ∨ s.fsm = .unusable) ∧
      ∃ i, decode (.cmd w) = .ok i ∧ i ≠ .init)

/-- The step keeps HOSTERR, and the events it adds are not a word and its response. -/
def KeepsHostErr (s s' : State) : Prop :=
  s'.hostErr = s.hostErr ∧ ∀ w ρ, s'.trace ≠ .resp ρ :: .cmd w :: s.trace

namespace KeepsHostErr

/-- A step that adds no event. -/
theorem of_trace_eq {s s' : State} (hh : s'.hostErr = s.hostErr) (ht : s'.trace = s.trace) :
    KeepsHostErr s s' := by
  refine ⟨hh, fun w ρ h => ?_⟩
  have hlen := congrArg List.length (ht.symm.trans h)
  simp only [List.length_cons] at hlen
  omega

/-- A step that adds one event. -/
theorem of_trace_cons {s s' : State} {e : Event} (hh : s'.hostErr = s.hostErr)
    (ht : s'.trace = e :: s.trace) : KeepsHostErr s s' := by
  refine ⟨hh, fun w ρ h => ?_⟩
  have hlen := congrArg List.length (ht.symm.trans h)
  simp only [List.length_cons] at hlen
  omega

/-- A step that adds two events, not a word and its response. -/
theorem of_trace_cons_cons {s s' : State} {e f : Event} (hh : s'.hostErr = s.hostErr)
    (ht : s'.trace = e :: f :: s.trace) (hne : ∀ ρ w, e = .resp ρ → f ≠ .cmd w) :
    KeepsHostErr s s' := by
  refine ⟨hh, fun w ρ h => ?_⟩
  have he := ht.symm.trans h
  simp only [List.cons.injEq, and_true] at he
  exact hne ρ w he.1 he.2

end KeepsHostErr

open KeepsHostErr

/-- SELECT keeps HOSTERR (R111). -/
theorem selectStep_keepsHostErr (pick : Option Nat) (s : State) :
    KeepsHostErr s (selectStep pick s) := by
  rcases selectStep_cases pick s with ⟨-, e⟩ | ⟨k, n, -, e⟩
  · rw [e]
    exact of_trace_cons rfl rfl
  · rw [e]
    cases k <;> exact of_trace_cons rfl rfl

/-- ID_RD keeps HOSTERR (R104). -/
theorem idRdStep_keepsHostErr (r : ReadRsp) (s : State) : KeepsHostErr s (idRdStep r s) := by
  obtain ⟨ρ, -, ⟨-, -, e⟩ | ⟨-, e⟩ | ⟨-, -, e⟩⟩ := idRdStep_cases r s <;>
    rw [e] <;> exact of_trace_cons_cons rfl rfl nofun

/-- WIN_SETTLE keeps HOSTERR (R114). -/
theorem winSettleStep_keepsHostErr (s : State) : KeepsHostErr s (winSettleStep s) := by
  rcases winSettleStep_cases s with ⟨-, e⟩ | ⟨-, ρ, -, e⟩
  · rw [e]
    exact of_trace_cons_cons rfl rfl nofun
  · rw [e]
    exact of_trace_cons rfl rfl

/-- A transition rejects the offered word, is the reset input, or keeps HOSTERR (R27). -/
theorem Transition.hostErr_cases {m : Option Move} {s s' : State} (hT : Transition m s s') :
    (∃ w st, s.cmd = some w ∧ rejectedAs st w s ∧ s' = reject st w s) ∨
      (m = some .reset ∧ s' = resetPulse s) ∨ KeepsHostErr s s' := by
  cases hT with
  | reserved w e _ hw hf hd => exact .inl ⟨w, .badCommand, hw, .inl ⟨rfl, hf, e, hd⟩, rfl⟩
  | pollNotReady w c wi r t hr _ hw hd hf =>
    exact .inl ⟨w, .notReady, hw, .inr ⟨rfl, hf, _, hd, nofun⟩,
      by rw [pollWord_eq_of_decodeCmd hd]⟩
  | setBaseNotReady w c _ hw hd hf =>
    exact .inl ⟨w, .notReady, hw, .inr ⟨rfl, hf, _, hd, nofun⟩,
      by rw [setBaseWord_eq_of_decodeCmd hd]⟩
  | stay | offer | decoder => exact .inr (.inr (of_trace_eq rfl rfl))
  | poll => exact .inr (.inr (of_trace_cons rfl rfl))
  | init | setBase | winWr | baseWr => exact .inr (.inr (of_trace_cons_cons rfl rfl nofun))
  | select pick => exact .inr (.inr (selectStep_keepsHostErr pick s))
  | idRd r => exact .inr (.inr (idRdStep_keepsHostErr r s))
  | winSettle => exact .inr (.inr (winSettleStep_keepsHostErr s))
  | verRd r =>
    obtain ⟨ρ, -, e⟩ := verRdStep_eq r s
    rw [e]
    exact .inr (.inr (of_trace_cons_cons rfl rfl nofun))
  | measRd r =>
    obtain ⟨ρ, -, e⟩ := measRdStep_eq r s
    rw [e]
    exact .inr (.inr (of_trace_cons rfl rfl))
  | winRd r =>
    obtain ⟨ρ, -, e⟩ := winRdStep_eq r s
    rw [e]
    exact .inr (.inr (of_trace_cons rfl rfl))
  | baseSettle =>
    obtain ⟨ρ, -, e⟩ := baseSettleStep_eq s
    rw [e]
    exact .inr (.inr (of_trace_cons_cons rfl rfl nofun))
  | reset hr => exact .inr (.inl ⟨hr, rfl⟩)

/-- Settles O39: a rejection sets HOSTERR and shows in the trace as its word and response; every
other transition keeps HOSTERR and shows no such pair. -/
theorem hostErrorIsSticky : Obligations.HostErrorIsSticky := by
  unfold Obligations.HostErrorIsSticky
  intro s s' hs hreset
  rcases (step_transition hs).hostErr_cases with
    ⟨w, st, hw, hrej, rfl⟩ | ⟨hm, -⟩ | ⟨hkept, htrace⟩
  · exact iff_of_true rfl (.inr ⟨w, st, hw, rfl, hrej⟩)
  · exact absurd hm hreset
  · rw [hkept, setSched_hostErr]
    exact ⟨.inl, fun h => h.elim id fun ⟨w, _, _, ht, _⟩ => absurd ht (htrace w _)⟩

/-- Only a stable engine rejects a word (R98). -/
theorem rejectedAs.stable {st : Status} {w : Word} {s : State} (h : rejectedAs st w s) :
    s.fsm ≠ .busy := by
  rcases h with ⟨-, hf, -⟩ | ⟨-, hf | hf, -⟩
  · exact hf
  · simp [hf]
  · simp [hf]

/-- With a word the engine rejects the host breaks its contract (R27, R146). -/
theorem rejectedAs.breaks_contract {st : Status} {w : Word} {s : State} (h : rejectedAs st w s) :
    hostKeepsContract w s = false := by
  unfold hostKeepsContract
  rcases h with ⟨-, -, e, he⟩ | ⟨-, hf, i, hi, hne⟩
  · have hd : decodeCmd w = .error e := he
    rw [hd]
  · have hd : decodeCmd w = .ok i := hi
    have hr : s.fsm ≠ .ready := by rcases hf with hf | hf <;> simp [hf]
    rw [hd]
    cases i with
    | init => exact absurd rfl hne
    | _ => exact decide_eq_false hr

/-- Settles O40: a rejection would break the premise, the reset input clears HOSTERR, and every
other transition keeps it. -/
theorem contractKeepsHostErrorClear : Obligations.ContractKeepsHostErrorClear := by
  unfold Obligations.ContractKeepsHostErrorClear
  intro s s' hs hclear hcontract
  rcases (step_transition hs).hostErr_cases with ⟨w, st, hw, hrej, -⟩ | ⟨-, rfl⟩ | ⟨hkept, -⟩
  · have hbroken : hostKeepsContract w s = false := hrej.breaks_contract
    have hkeeps : hostKeepsContract w s = true := hcontract w hw hrej.stable
    exact absurd (hkeeps.symm.trans hbroken) (by decide)
  · rfl
  · exact hkept.trans hclear

end Sys2Proof.Machine
end

section
/-! When the trace properties P1 to P6 allow one more event (70_reset_and_hazards.md R152): one rule
per kind of event, in terms of what is outstanding, due and open before it. -/

namespace Sys2Proof.Machine

/-- The six properties allow the event `e` after the events `before`. -/
structure EventOk (e : Event) (before : List Event) : Prop where
  p1 : okP1 e before = true
  p2 : okP2 e before = true
  p3 : okP3 e before = true
  p4 : okP4 e before = true
  p5 : okP5 e before = true
  p6 : okP6 e before = true

/-- A good trace and an event the properties allow after it make a good trace. -/
theorem TraceOk.cons {t : List Event} {e : Event} (h : TraceOk t) (he : EventOk e t) :
    TraceOk (e :: t) where
  p1 := by simp [everyEvent, he.p1, h.p1]
  p2 := by simp [everyEvent, he.p2, h.p2]
  p3 := by simp [everyEvent, he.p3, h.p3]
  p4 := by simp [everyEvent, he.p4, h.p4]
  p5 := by simp [everyEvent, he.p5, h.p5]
  p6 := by simp [everyEvent, he.p6, h.p6]

section
variable {t : List Event} {w : Word}

/-! ### P3 -/

/-- Outside a POLL, P3 asks nothing. -/
theorem okP3_of_opField_ne {e : Event} (ho : openCmd t = some w) (hop : opField w ≠ 2) :
    okP3 e t = true := by
  unfold okP3
  rw [ho]
  simp only [decide_eq_false hop, Bool.false_and, Bool.false_eq_true, if_false]

/-- After a trace that does not end with a settled window write, P3 allows every event but a request
and a response. -/
theorem okP3_of_not_windowSettled {e : Event} (hns : windowSettled t = false)
    (hq : ∀ q, e ≠ .treq q) (hr : ∀ ρ, e ≠ .resp ρ) : okP3 e t = true := by
  unfold okP3
  cases openCmd t with
  | none => rfl
  | some w =>
    cases e with
    | treq q => exact absurd rfl (hq q)
    | resp ρ => exact absurd rfl (hr ρ)
    | _ => simp [hns]

/-- P3 allows a response when the window was written as often as STATUS says. -/
theorem okP3_resp {ρ : Resp} (ho : openCmd t = some w) (hns : windowSettled t = false)
    (hw : w.getLsbD 5 = true →
      windowWrites t = if rw0Status ρ.rw0 = Status.ok.bits then 1 else 0) :
    okP3 (.resp ρ) t = true := by
  unfold okP3
  rw [ho]
  cases hwin : w.getLsbD 5 with
  | true => simp [hns, hw hwin]
  | false => simp only [hwin, Bool.and_false, Bool.false_eq_true, if_false]

/-- P3 allows the window read right after a window write that answered OK and its settle. -/
theorem okP3_windowRead (hs : windowSettled t = true) :
    okP3 (.treq (reqMeasurement .win)) t = true := by
  unfold okP3
  cases openCmd t with
  | none => rfl
  | some w => simp [hs, reqMeasurement, Kind.addr, Kind.width, Kind.reg, Reg.addr, Reg.width]

/-- P3 allows the first request of a kind; the window write carries the word's HOURS and is the
first of its POLL. -/
theorem okP3_firstRequest {k : Kind} (ho : openCmd t = some w) (hns : windowSettled t = false)
    (hw : k = .win → windowWrites t = 0) :
    okP3 (.treq (firstRequest k (w.extractLsb' 8 8))) t = true := by
  unfold okP3
  rw [ho]
  cases k with
  | win => simp [firstRequest, hns, hw rfl]
  | _ => simp [firstRequest, hns]

/-! ### The events -/

/-- A word is taken when none is open and no settle is due. -/
theorem EventOk.cmd (ho : openCmd t = none) (hs : settleWait t = .idle) : EventOk (.cmd w) t where
  p1 := rfl
  p2 := by simp [okP2, hs]
  p3 := by simp [okP3, ho]
  p4 := rfl
  p5 := by simp [okP5, ho]
  p6 := rfl

/-- A request of the open word is issued when no other is outstanding and no settle is due. -/
theorem EventOk.treq {q : TReq} (ho : openCmd t = some w) (hq : outstanding t = none)
    (hs : settleWait t = .idle) (hb : belongs w q = true) (h3 : okP3 (.treq q) t = true) :
    EventOk (.treq q) t where
  p1 := by simp [okP1, hq]
  p2 := by simp [okP2, hs]
  p3 := h3
  p4 := by simp [okP4, ho, hb]
  p5 := rfl
  p6 := by simp [okP6, ho]

/-- An answer its kind allows is taken for the outstanding request. -/
theorem EventOk.trsp {q : TReq} {r : TRsp} (hq : outstanding t = some q)
    (hr : r.fits q.toXReq = true) (hs : settleWait t = .idle) (hns : windowSettled t = false) :
    EventOk (.trsp r) t where
  p1 := by simp [okP1, hq, hr]
  p2 := by simp [okP2, hs]
  p3 := okP3_of_not_windowSettled hns nofun nofun
  p4 := rfl
  p5 := rfl
  p6 := rfl

/-- A settle starts when it is due. -/
theorem EventOk.settleStart (hs : settleWait t = .startDue) (hns : windowSettled t = false) :
    EventOk .settleStart t where
  p1 := rfl
  p2 := by simp [okP2, hs]
  p3 := okP3_of_not_windowSettled hns nofun nofun
  p4 := rfl
  p5 := rfl
  p6 := rfl

/-- A settle that has started is done. -/
theorem EventOk.settleDone (hs : settleWait t = .doneDue) (hns : windowSettled t = false) :
    EventOk .settleDone t where
  p1 := rfl
  p2 := by simp [okP2, hs]
  p3 := okP3_of_not_windowSettled hns nofun nofun
  p4 := rfl
  p5 := rfl
  p6 := rfl

/-- The response of the open word echoes its OP and comes when no settle is due. -/
theorem EventOk.resp {ρ : Resp} (ho : openCmd t = some w) (hs : settleWait t = .idle)
    (he : rw0OpEcho ρ.rw0 = opField w) (h3 : okP3 (.resp ρ) t = true) : EventOk (.resp ρ) t where
  p1 := rfl
  p2 := by simp [okP2, hs]
  p3 := h3
  p4 := rfl
  p5 := by simp [okP5, ho, he]
  p6 := rfl

/-- A reset may come at any time but between a write's answer and the start of its settle. -/
theorem EventOk.reset (hs : settleWait t ≠ .startDue) (hns : windowSettled t = false) :
    EventOk .reset t where
  p1 := rfl
  p2 := by
    unfold okP2
    cases h : settleWait t with
    | startDue => exact absurd h hs
    | _ => decide
  p3 := okP3_of_not_windowSettled hns nofun nofun
  p4 := rfl
  p5 := rfl
  p6 := rfl

end

/-! ### The settle and the window writes after an answer or a request -/

/-- No settle is due after the answer to a read (R52). -/
theorem settleWait_trsp_of_read {t : List Event} {q : TReq} {r : TRsp}
    (hq : outstanding t = some q) (hk : q.toXReq.kind = .read) : settleWait (.trsp r :: t) = .idle := by
  cases q with
  | read a n => simp [settleWait, hq]
  | write a bs => cases hk

/-- A settle is due after the answer to a write (R52). -/
theorem settleWait_trsp_of_write {t : List Event} {q : TReq} {r : TRsp}
    (hq : outstanding t = some q) (hk : q.toXReq.kind = .write) : settleWait (.trsp r :: t) = .startDue := by
  cases q with
  | read a n => cases hk
  | write a bs => simp [settleWait, hq]

/-- The first request of a kind is a window write for WIN alone (R111). -/
theorem windowWrites_firstRequest (k : Kind) (hr : Byte) (t : List Event) :
    windowWrites (.treq (firstRequest k hr) :: t)
      = if k = .win then windowWrites t + 1 else windowWrites t := by
  cases k <;> simp [windowWrites, sinceCmd, firstRequest, isWindowWrite]

end Sys2Proof.Machine
end

section
/-! The command in progress: what CUR_OP and the latches say of its word (10_state.md R19, R21,
R22), and the requests that belong to it (30_encoding.md R76). -/

namespace Sys2Proof.Machine

/-! ### The pending kinds -/

/-- A kind pending in `p` is requested by `q` when PENDING holds requested kinds only (R21). -/
theorem isPending_of_subset {p q : BitVec 4} {k : Kind} (h : p &&& ~~~q = 0)
    (hk : isPending p k = true) : isPending q k = true := by
  have hlt : k.index < 4 := by cases k <;> decide
  have hbit := congrArg (·.getLsbD k.index) h
  simpa [isPending, hlt, show p.getLsbD k.index = true from hk] using hbit

/-- Clearing one kind leaves the others (R111). -/
theorem isPending_clearPending (p : BitVec 4) (k j : Kind) :
    isPending (clearPending p k) j = (isPending p j && decide (j ≠ k)) := by
  cases k <;> cases j <;> revert p <;> decide

/-- PENDING still holds requested kinds only after one was cleared. -/
theorem clearPending_subset {p q : BitVec 4} {k : Kind} (h : p &&& ~~~q = 0) :
    clearPending p k &&& ~~~q = 0 := by
  rw [clearPending, BitVec.and_assoc, BitVec.and_comm (~~~_), ← BitVec.and_assoc, h]
  exact BitVec.zero_and

/-- The request bits of a POLL, kind by kind (R65, R106). -/
@[simp] theorem isPending_requestBits (c wi r t : Bool) (k : Kind) :
    isPending (requestBits c wi r t) k
      = match k with | .cum => c | .win => wi | .raw => r | .time => t := by
  cases k <;> revert c wi r t <;> decide

/-! ### The requests of a word -/

/-- The identity and version reads belong to INIT (R102). -/
theorem belongs_init {w : Word} (hd : decodeCmd w = .ok .init) :
    belongs w reqIdentity = true ∧ belongs w reqVersion = true := by
  unfold belongs
  rw [hd]
  decide

/-- The base write with the word's CODE belongs to SET_BASE (R118). -/
theorem belongs_setBase {w : Word} {c : Half} (hd : decodeCmd w = .ok (.setBase c)) :
    belongs w (reqBase c) = true := by
  unfold belongs
  rw [hd]
  exact decide_eq_true rfl

/-- The first request of each requested kind belongs to a POLL (R111). -/
theorem belongs_firstRequest {w : Word} {c wi r t : Bool} {hr : Byte} {k : Kind}
    (hd : decodeCmd w = .ok (.poll c wi r t hr)) (hk : isPending (requestBits c wi r t) k = true) :
    belongs w (firstRequest k hr) = true := by
  unfold belongs
  rw [hd]
  cases k <;> simp_all [firstRequest]

/-- The window read belongs to a POLL with REQ_WIN = 1 (R114). -/
theorem belongs_windowRead {w : Word} {c r t : Bool} {hr : Byte}
    (hd : decodeCmd w = .ok (.poll c true r t hr)) :
    belongs w (reqMeasurement .win) = true := by
  unfold belongs
  rw [hd]
  simp [reqMeasurement, Kind.addr, Kind.width, Kind.reg, Reg.addr, Reg.width]

/-! ### The latches -/

/-- The latches of INIT: CUR_OP alone (R103). -/
theorem latchesHold_init {w : Word} (s : State) (hd : decodeCmd w = .ok .init) :
    latchesHold w s ↔ s.curOp = 1 := by
  unfold latchesHold
  rw [hd, (decodeCmd_init_fields hd).1]
  exact and_iff_left trivial

/-- The latches of a POLL: CUR_OP, HOURS, PENDING, and how far the window's group is (R110,
R111). -/
theorem latchesHold_poll {w : Word} {c wi r t : Bool} {hr : Byte} (s : State)
    (hd : decodeCmd w = .ok (.poll c wi r t hr)) :
    latchesHold w s ↔ s.curOp = 2 ∧ s.hours = hr ∧ s.pending &&& ~~~requestBits c wi r t = 0 ∧
      windowWrites s.trace = (if wi && !isPending s.pending .win then 1 else 0) ∧
      (s.phase = .winWr ∨ s.phase = .winSettle ∨ s.phase = .winRd → wi = true) := by
  unfold latchesHold
  rw [hd, (decodeCmd_poll_fields hd).1]

/-- The latches of SET_BASE: CUR_OP and CODE (R118). -/
theorem latchesHold_setBase {w : Word} {c : Half} (s : State)
    (hd : decodeCmd w = .ok (.setBase c)) : latchesHold w s ↔ s.curOp = 3 ∧ s.code = c := by
  unfold latchesHold
  rw [hd, (decodeCmd_setBase_fields hd).1]

/-- The word in progress is a command, and CUR_OP is its OP. -/
theorem latchesHold_cases {w : Word} {s : State} (h : latchesHold w s) :
    (s.curOp = 1 ∧ decodeCmd w = .ok .init) ∨
      (s.curOp = 2 ∧ ∃ c wi r t hr, decodeCmd w = .ok (.poll c wi r t hr)) ∨
      (s.curOp = 3 ∧ ∃ c, decodeCmd w = .ok (.setBase c)) := by
  cases hd : decodeCmd w with
  | error e =>
    unfold latchesHold at h
    rw [hd] at h
    exact h.2.elim
  | ok i =>
    rcases decodeCmd_ok_cases hd with rfl | ⟨c, wi, r, t, hr, rfl⟩ | ⟨c, rfl⟩
    · exact .inl ⟨(latchesHold_init s hd).mp h, rfl⟩
    · exact .inr (.inl ⟨((latchesHold_poll s hd).mp h).1, _, _, _, _, _, rfl⟩)
    · exact .inr (.inr ⟨((latchesHold_setBase s hd).mp h).1, _, rfl⟩)

/-- The word in progress in a phase of INIT. -/
theorem latchesHold.decode_init {w : Word} {s : State} (h : latchesHold w s) (hc : s.curOp = 1) :
    decodeCmd w = .ok .init := by
  rcases latchesHold_cases h with ⟨-, hd⟩ | ⟨hc', -⟩ | ⟨hc', -⟩
  · exact hd
  · simp [hc] at hc'
  · simp [hc] at hc'

/-- The word in progress in a phase of a POLL. -/
theorem latchesHold.decode_poll {w : Word} {s : State} (h : latchesHold w s) (hc : s.curOp = 2) :
    ∃ c wi r t hr, decodeCmd w = .ok (.poll c wi r t hr) := by
  rcases latchesHold_cases h with ⟨hc', -⟩ | ⟨-, hd⟩ | ⟨hc', -⟩
  · simp [hc] at hc'
  · exact hd
  · simp [hc] at hc'

/-- The latches still hold of the word after a step that keeps them, does not write the window, and
enters the window's group from within it only. -/
theorem latchesHold.congr {w : Word} {s s' : State} (h : latchesHold w s) (hc : s'.curOp = s.curOp)
    (hh : s'.hours = s.hours) (hpd : s'.pending = s.pending) (hcd : s'.code = s.code)
    (hww : windowWrites s'.trace = windowWrites s.trace)
    (hp : s'.phase = .winWr ∨ s'.phase = .winSettle ∨ s'.phase = .winRd →
      s.phase = .winWr ∨ s.phase = .winSettle ∨ s.phase = .winRd) : latchesHold w s' := by
  rcases latchesHold_cases h with ⟨-, hd⟩ | ⟨-, c, wi, r, t, hr, hd⟩ | ⟨-, c, hd⟩
  · rw [latchesHold_init _ hd] at h ⊢
    exact hc.trans h
  · rw [latchesHold_poll _ hd] at h ⊢
    obtain ⟨h1, h2, h3, h4, h5⟩ := h
    exact ⟨hc.trans h1, hh.trans h2, hpd ▸ h3, by rw [hww, hpd, h4], fun hs => h5 (hp hs)⟩
  · rw [latchesHold_setBase _ hd] at h ⊢
    exact ⟨hc.trans h.1, hcd.trans h.2⟩

end Sys2Proof.Machine
end

section
/-! The invariant of the whole machine (10_state.md R36; 70_reset_and_hazards.md R152). Between two
events the machine either rests, with no word open, or acts within the open word `w`: `Resting` and
`Acting` say so of registers and trace together. Each operation the steps are built from leads from
one of the two to the other or to a state whose trace tells the registers' story, and each step is a
chain of them. -/

namespace Sys2Proof.Machine

/-- The trace tells the registers' story and has the properties P1 to P6. -/
structure Traced (s : State) : Prop where
  link : TraceLink s
  ok : TraceOk s.trace

/-- No word is open and nothing is in flight, in the registers and in the trace. -/
structure Resting (s : State) : Prop where
  stable : s.fsm ≠ .busy
  phase_none : s.phase = .none
  no_request : s.xreq = none
  no_settle : s.settle = false
  answered : outstanding s.trace = none
  settled : settleWait s.trace = .idle
  closed : openCmd s.trace = none
  not_settled : windowSettled s.trace = false
  ok : TraceOk s.trace

/-- The engine acts within the open word `w`: no request is outstanding and no settle armed or due,
in the registers and in the trace. -/
structure Acting (w : Word) (s : State) : Prop where
  busy : s.fsm = .busy
  no_request : s.xreq = none
  no_settle : s.settle = false
  answered : outstanding s.trace = none
  settled : settleWait s.trace = .idle
  opened : openCmd s.trace = some w
  op_eq : s.curOp = opField w
  echo : rw0OpEcho s.resp.rw0 = s.curOp
  ok : TraceOk s.trace

/-! ### What the invariant gives -/

/-- DATA and ERR fit a READ (R122). -/
theorem fits_of_read (r : ReadRsp) {x : XReq} (hk : x.kind = .read) :
    r.toTRsp.fits x = true := by
  unfold TRsp.fits
  rw [hk]
  cases r <;> rfl

/-- OK and ERR fit a WRITE (R122). -/
theorem fits_of_write (r : WriteRsp) {x : XReq} (hk : x.kind = .write) :
    r.toTRsp.fits x = true := by
  unfold TRsp.fits
  rw [hk]
  cases r <;> rfl

/-- With XFER = 0 the trace has every request answered. -/
theorem TraceLink.answered {s : State} (h : TraceLink s) (hx : s.xreq = none) :
    outstanding s.trace = none :=
  Option.map_eq_none_iff.mp (h.outstanding_eq.trans hx)

/-- With SETTLE = 0 the trace has every settle done. -/
theorem TraceLink.settled {s : State} (h : TraceLink s) (hs : s.settle = false) :
    settleWait s.trace = .idle := by
  rw [h.settle_eq, hs]
  rfl

/-- With SETTLE = 1 the trace waits for the settle that has started. -/
theorem TraceLink.settling {s : State} (h : TraceLink s) (hs : s.settle = true) :
    settleWait s.trace = .doneDue := by
  rw [h.settle_eq, hs]
  rfl

namespace MachineInv
variable {s : State}

/-- A machine in a stable state rests. -/
theorem resting (h : MachineInv s) (hf : s.fsm ≠ .busy) : Resting s := by
  have he := h.sequencer.engine
  have hp := he.phase_of_stable hf
  have hx : s.xreq = none := he.xreq_of_phase hp rfl
  have hs : s.settle = false := he.settle_of_phase hp
  have hc : openCmd s.trace = none := by
    rw [← Option.isNone_iff_eq_none, ← Option.isSome_eq_false_iff, h.link.open_iff]
    exact decide_eq_false hf
  exact ⟨hf, hp, hx, hs, h.link.answered hx, h.link.settled hs, hc, h.link.not_settled, h.trace⟩

/-- A busy machine has a word open, which its latches hold. -/
theorem exists_open (h : MachineInv s) (hf : s.fsm = .busy) :
    ∃ w, openCmd s.trace = some w ∧ latchesHold w s := by
  have ho : (openCmd s.trace).isSome = true := h.link.open_iff.trans (decide_eq_true hf)
  obtain ⟨w, hw⟩ := Option.isSome_iff_exists.mp ho
  exact ⟨w, hw, h.link.latches w hw⟩

/-- The request XREQ holds is outstanding in the trace, and no settle is armed. -/
theorem exists_outstanding {x : XReq} (h : MachineInv s) (hx : s.xreq = some x) :
    s.settle = false ∧ ∃ q, outstanding s.trace = some q ∧ q.toXReq = x := by
  have hboth := h.sequencer.engine.not_both
  have hq := h.link.outstanding_eq
  rw [hx, Option.map_eq_some_iff] at hq
  exact ⟨by simpa [State.xfer, hx] using hboth, hq⟩

/-- In SELECT the engine acts. -/
theorem acting_of_select (h : MachineInv s) (hp : s.phase = .select) :
    ∃ w, Acting w s ∧ latchesHold w s := by
  have he := h.sequencer.engine
  have hf := he.busy_of_phase hp (by decide)
  have hx : s.xreq = none := he.xreq_of_phase hp rfl
  have hs : s.settle = false := he.settle_of_phase hp
  obtain ⟨w, hw, hl⟩ := h.exists_open hf
  exact ⟨w, ⟨hf, hx, hs, h.link.answered hx, h.link.settled hs, hw, hl.1, h.link.echo hf,
    h.trace⟩, hl⟩

/-- Once the answer to a read is taken the engine acts, and the latches hold as before (R104, R105,
R112, R115). -/
theorem acting_of_read {x : XReq} (h : MachineInv s) (hf : s.fsm = .busy)
    (hx : s.xreq = some x) (hk : x.kind = .read) (r : ReadRsp) :
    ∃ w, Acting w (takeTRsp r.toTRsp s) ∧ latchesHold w (takeTRsp r.toTRsp s) := by
  obtain ⟨w, hw, hl⟩ := h.exists_open hf
  obtain ⟨hs, q, hq, rfl⟩ := h.exists_outstanding hx
  have hok : TraceOk (.trsp r.toTRsp :: s.trace) :=
    h.trace.cons (.trsp hq (fits_of_read r hk) (h.link.settled hs) h.link.not_settled)
  exact ⟨w, ⟨hf, rfl, hs, rfl, settleWait_trsp_of_read hq hk, hw, hl.1, h.link.echo hf, hok⟩,
    hl.congr rfl rfl rfl rfl rfl id⟩

/-- Once the timer's signal is taken the engine acts, and the latches hold as before (R114,
R120). -/
theorem acting_of_settle (h : MachineInv s) (hf : s.fsm = .busy) (hs : s.settle = true) :
    ∃ w, Acting w (takeSettleDone s) ∧ latchesHold w (takeSettleDone s) := by
  obtain ⟨w, hw, hl⟩ := h.exists_open hf
  have hboth := h.sequencer.engine.not_both
  have hx : s.xreq = none := by simpa [State.xfer, hs] using hboth
  have hok : TraceOk (.settleDone :: s.trace) :=
    h.trace.cons (.settleDone (h.link.settling hs) h.link.not_settled)
  exact ⟨w, ⟨hf, hx, rfl, h.link.answered hx, rfl, hw, hl.1, h.link.echo hf, hok⟩,
    hl.congr rfl rfl rfl rfl rfl id⟩

end MachineInv

/-! ### Rest -/

namespace Resting

/-- The trace tells the story of a machine at rest. -/
theorem traced {s : State} (h : Resting s) : Traced s where
  ok := h.ok
  link :=
    { outstanding_eq := by rw [h.answered, h.no_request]; rfl
      settle_eq := by rw [h.settled, h.no_settle]; rfl
      open_iff := by rw [h.closed, decide_eq_false h.stable]; rfl
      latches := by simp [h.closed]
      echo := fun hf => absurd hf h.stable
      window_write := by simp [h.phase_none]
      window_settle := by simp [h.phase_none]
      not_settled := h.not_settled }

/-- An accepted word is open, and the engine acts within it (R103, R110, R118). -/
theorem accept {s : State} {w : Word} {op : BitVec 4} (h : Resting s) (hop : opField w = op)
    (p : Phase) : Acting w (accept w op p s) where
  busy := rfl
  no_request := h.no_request
  no_settle := h.no_settle
  answered := h.answered
  settled := h.settled
  opened := rfl
  op_eq := hop.symm
  echo := rw0OpEcho_rw0Accepted op
  ok := h.ok.cons (.cmd h.closed h.settled)

/-- A rejected word is answered at once, and the machine rests again (R99, R100). -/
theorem reject {s : State} {st : Status} (h : Resting s) (hst : st.bits ≠ Status.ok.bits)
    (w : Word) : Resting (reject st w s) := by
  have h3 : okP3 (.resp { Resp.zero with rw0 := rw0Rejected st (opField w) }) (.cmd w :: s.trace)
      = true := okP3_resp rfl rfl fun _ => by simp [hst, windowWrites, sinceCmd]
  exact { h with
    answered := h.answered
    settled := h.settled
    closed := rfl
    not_settled := rfl
    ok := (h.ok.cons (.cmd h.closed h.settled)).cons
      (.resp rfl h.settled (rw0OpEcho_rw0Rejected st (opField w)) h3) }

end Resting

/-! ### Action -/

/-- The trace tells the story of a busy engine whose open word its latches hold. -/
theorem TraceLink.of_open {s : State} {w : Word} (hf : s.fsm = .busy)
    (ho : openCmd s.trace = some w) (hl : latchesHold w s)
    (hq : (outstanding s.trace).map TReq.toXReq = s.xreq)
    (hs : settleWait s.trace = if s.settle then .doneDue else .idle)
    (he : rw0OpEcho s.resp.rw0 = s.curOp)
    (hww : s.phase = .winWr → ∃ before, s.trace = .treq (.write 0x26 [s.hours]) :: before)
    (hws : s.phase = .winSettle → ∃ before, s.trace = .settleStart
      :: .trsp (if s.wrOk then .ok else .err) :: .treq (.write 0x26 [s.hours]) :: before)
    (hns : windowSettled s.trace = false) : TraceLink s where
  outstanding_eq := hq
  settle_eq := hs
  open_iff := by rw [ho, decide_eq_true hf]; rfl
  latches := fun w' hw' => by
    rw [ho] at hw'
    exact Option.some.inj hw' ▸ hl
  echo := fun _ => he
  window_write := hww
  window_settle := hws
  not_settled := hns

namespace Acting
variable {w : Word} {s : State}

/-- The phase is no part of it. -/
theorem setPhase (h : Acting w s) (p : Phase) : Acting w (setPhase p s) := { h with }

/-- A write into the response buffer that leaves OP_ECHO keeps it. -/
theorem setResp (h : Acting w s) {ρ : Resp} (he : rw0OpEcho ρ.rw0 = rw0OpEcho s.resp.rw0) :
    Acting w (setResp ρ s) :=
  { h with echo := he.trans h.echo }

/-- Writing STATUS leaves OP_ECHO. -/
theorem setStatus (h : Acting w s) (st : Status) : Acting w (setStatus st s) :=
  { h with echo := (rw0OpEcho_setRw0Status _ st).trans h.echo }

/-- `finish` answers the open word, and the machine rests (R101). -/
theorem finish (h : Acting w s) {target : FsmState} (ht : target ≠ .busy)
    (h3 : okP3 (.resp s.resp) s.trace = true) : Resting (finish target s) where
  stable := ht
  phase_none := rfl
  no_request := h.no_request
  no_settle := h.no_settle
  answered := h.answered
  settled := h.settled
  closed := rfl
  not_settled := rfl
  ok := h.ok.cons (.resp h.opened h.settled (h.echo.trans h.op_eq) h3)

/-- A request of the open word is issued (R103, R104, R111, R114, R118). -/
theorem issue (h : Acting w s) {q : TReq} (hl : latchesHold w (issue q s))
    (hb : belongs w q = true) (h3 : okP3 (.treq q) s.trace = true)
    (hww : s.phase = .winWr → q = .write 0x26 [s.hours]) (hns : s.phase ≠ .winSettle) :
    Traced (issue q s) where
  ok := h.ok.cons (.treq h.opened h.answered h.settled hb h3)
  link := .of_open (w := w) h.busy h.opened hl rfl
    (by rw [issue_settle, h.no_settle]; exact h.settled) h.echo
    (fun hp => ⟨s.trace, by rw [issue_trace, hww hp]; rfl⟩) (fun hp => absurd hp hns) rfl

/-- The engine comes to SELECT, with no request and no settle (R110, R112, R114, R115). -/
theorem select (h : Acting w s) (hp : s.phase = .select) (hl : latchesHold w s)
    (hns : windowSettled s.trace = false) : Traced s where
  ok := h.ok
  link := .of_open h.busy h.opened hl (by rw [h.answered, h.no_request]; rfl)
    (by rw [h.no_settle]; exact h.settled) h.echo (by simp [hp]) (by simp [hp]) hns

end Acting

end Sys2Proof.Machine
end

section
/-! Every transition keeps the invariant of the whole machine, step by step (41_protocol.md R98 to
R122). -/

namespace Sys2Proof.Machine

/-! ### The command channel -/

namespace Resting
variable {s : State} {w : Word}

/-- INIT is accepted (R103). -/
theorem acceptInit (h : Resting s) (hd : decodeCmd w = .ok .init) : Traced (acceptInit s) := by
  obtain rfl := initWord_eq_of_decodeCmd hd
  have hop := (decodeCmd_init_fields hd).1
  have ha := h.accept hop .idRd
  exact ha.issue ((latchesHold_init _ hd).mpr rfl) (belongs_init hd).1
    (okP3_of_opField_ne ha.opened (by rw [hop]; decide)) nofun nofun

/-- POLL is accepted (R110). -/
theorem acceptPoll {c wi r t : Bool} {hr : Byte} (h : Resting s)
    (hd : decodeCmd w = .ok (.poll c wi r t hr)) : Traced (acceptPoll c wi r t hr s) := by
  obtain rfl := pollWord_eq_of_decodeCmd hd
  have ha := h.accept (decodeCmd_poll_fields hd).1 .select
  have hl : latchesHold (pollWord c wi r t hr) (Machine.acceptPoll c wi r t hr s) := by
    rw [latchesHold_poll _ hd]
    refine ⟨rfl, rfl, BitVec.and_not_self _, ?_, by simp [Machine.acceptPoll]⟩
    simp [Machine.acceptPoll, windowWrites, sinceCmd]
  exact Acting.select (w := pollWord c wi r t hr) { ha with } rfl hl rfl

/-- SET_BASE is accepted (R118). -/
theorem acceptSetBase {c : Half} (h : Resting s) (hd : decodeCmd w = .ok (.setBase c)) :
    Traced (acceptSetBase c s) := by
  obtain rfl := setBaseWord_eq_of_decodeCmd hd
  have hop := (decodeCmd_setBase_fields hd).1
  have ha : Acting (setBaseWord c) (setCode c (Machine.accept (setBaseWord c) 3 .baseWr s)) :=
    { h.accept hop .baseWr with }
  exact ha.issue ((latchesHold_setBase _ hd).mpr ⟨rfl, rfl⟩) (belongs_setBase hd)
    (okP3_of_opField_ne ha.opened (by rw [hop]; decide)) nofun nofun

end Resting

/-! ### SELECT -/

/-- The part of SELECT after the draw, uniformly in the kind (R111). -/
theorem startMeasurement_eq (k : Kind) (s : State) :
    startMeasurement k s = issue (firstRequest k s.hours)
      (setPhase (if k = .win then .winWr else .measRd) (setMeas (if k = .win then s.meas else k)
        (setPending (clearPending s.pending k) s))) := by
  cases k <;> rfl

/-- Starting a pending kind keeps the latches: the window is written when WIN leaves PENDING, and at
no other start (R111). -/
theorem latchesHold_startMeasurement {w : Word} {s : State} {k : Kind} (hl : latchesHold w s)
    (hc : s.curOp = 2) (hk : isPending s.pending k = true) :
    latchesHold w (startMeasurement k s) := by
  obtain ⟨c, wi, r, t, hr, hd⟩ := hl.decode_poll hc
  rw [startMeasurement_eq]
  rw [latchesHold_poll _ hd] at hl ⊢
  obtain ⟨-, hhr, hsub, hww, -⟩ := hl
  have hreq : isPending (requestBits c wi r t) k = true := isPending_of_subset hsub hk
  refine ⟨hc, hhr, clearPending_subset hsub, ?_, ?_⟩
  · simp only [issue_trace, setPhase_trace, setMeas_trace, setPending_trace, issue_pending,
      setPhase_pending, setMeas_pending, setPending_pending, windowWrites_firstRequest,
      isPending_clearPending, hww]
    cases k <;> simp_all
  · cases k <;> simp_all

/-- A pending kind's first request is issued (R111). -/
theorem Acting.startMeasurement {w : Word} {s : State} {k : Kind} (ha : Acting w s)
    (hl : latchesHold w s) (hc : s.curOp = 2) (hns : windowSettled s.trace = false)
    (hk : isPending s.pending k = true) : Traced (startMeasurement k s) := by
  have hl' := latchesHold_startMeasurement hl hc hk
  rw [startMeasurement_eq] at hl' ⊢
  obtain ⟨c, wi, r, t, hr, hd⟩ := hl.decode_poll hc
  obtain ⟨-, hhours, hsub, hww, -⟩ := (latchesHold_poll s hd).mp hl
  obtain ⟨-, -, -, -, -, -, hhr⟩ := decodeCmd_poll_fields hd
  have hb : belongs w (firstRequest k s.hours) = true := by
    rw [hhours]
    exact belongs_firstRequest hd (isPending_of_subset hsub hk)
  have h3 : okP3 (.treq (firstRequest k s.hours)) s.trace = true := by
    rw [hhours, ← hhr]
    refine okP3_firstRequest ha.opened hns ?_
    rintro rfl
    simp [hww, hk]
  have ha' : Acting w (Machine.setPhase (if k = .win then .winWr else .measRd)
      (setMeas (if k = .win then s.meas else k) (setPending (clearPending s.pending k) s))) :=
    { ha with }
  refine ha'.issue hl' hb h3 ?_ ?_
  · cases k <;> simp [firstRequest]
  · cases k <;> simp

/-- SELECT ends the POLL or starts a measurement (R111). -/
theorem MachineInv.selectStep {s : State} (h : MachineInv s) (hp : s.phase = .select)
    (pick : Option Nat) : Traced (selectStep pick s) := by
  obtain ⟨w, ha, hl⟩ := h.acting_of_select hp
  have hc : s.curOp = 2 := h.sequencer.engine.curOp_of_phase hp rfl
  rcases selectStep_cases pick s with ⟨h0, e⟩ | ⟨k, n, hk, e⟩
  · obtain ⟨c, wi, r, t, hr, hd⟩ := hl.decode_poll hc
    obtain ⟨-, -, -, hww, -⟩ := (latchesHold_poll s hd).mp hl
    obtain ⟨-, -, -, hwi, -⟩ := decodeCmd_poll_fields hd
    have h3 : okP3 (.resp (setStatus .ok s).resp) s.trace = true :=
      okP3_resp ha.opened h.link.not_settled fun hwin => by
        rw [hww, pendingKinds_eq_nil.mp h0, ← hwi, hwin, setStatus_resp, rw0Status_setRw0Status]
        rfl
    rw [e]
    exact ((ha.setStatus .ok).finish (by decide) h3).traced
  · have ha' : Acting w (setDraws n s) := { ha with }
    have hl' : latchesHold w (setDraws n s) := hl.congr rfl rfl rfl rfl rfl id
    rw [e]
    exact ha'.startMeasurement hl' hc h.link.not_settled hk

/-! ### The answers and the signal -/

namespace MachineInv
variable {s : State}

/-- INIT's identity read is answered (R104). -/
theorem idRdStep (h : MachineInv s) (hp : s.phase = .idRd) {x : XReq} (hx : s.xreq = some x)
    (hk : x.kind = .read) (r : ReadRsp) : Traced (idRdStep r s) := by
  have he := h.sequencer.engine
  obtain ⟨w, ha, hl⟩ := h.acting_of_read (he.busy_of_phase hp (by decide)) hx hk r
  have hc : s.curOp = 1 := he.curOp_of_phase hp rfl
  have hd := hl.decode_init hc
  have hop : opField w ≠ 2 := by rw [(decodeCmd_init_fields hd).1]; decide
  obtain ⟨ρ, hρ, ⟨-, -, e⟩ | ⟨-, e⟩ | ⟨-, -, e⟩⟩ := idRdStep_cases r s
  · rw [e]
    exact ((ha.setResp hρ).finish (by decide) (okP3_of_opField_ne ha.opened hop)).traced
  · rw [e]
    exact ((ha.setResp hρ).finish (by decide) (okP3_of_opField_ne ha.opened hop)).traced
  · rw [e]
    exact ((ha.setResp hρ).setPhase .verRd).issue ((latchesHold_init _ hd).mpr hc)
      (belongs_init hd).2 (okP3_of_opField_ne ha.opened hop) nofun nofun

/-- INIT's version read is answered (R105). -/
theorem verRdStep (h : MachineInv s) (hp : s.phase = .verRd) {x : XReq} (hx : s.xreq = some x)
    (hk : x.kind = .read) (r : ReadRsp) : Traced (verRdStep r s) := by
  have he := h.sequencer.engine
  obtain ⟨w, ha, hl⟩ := h.acting_of_read (he.busy_of_phase hp (by decide)) hx hk r
  have hd := hl.decode_init (he.curOp_of_phase hp rfl)
  have hop : opField w ≠ 2 := by rw [(decodeCmd_init_fields hd).1]; decide
  obtain ⟨ρ, hρ, e⟩ := verRdStep_eq r s
  rw [e]
  exact ((ha.setResp hρ).finish (by decide) (okP3_of_opField_ne ha.opened hop)).traced

/-- A measurement's read is answered, and the engine comes back to SELECT (R112, R115). -/
theorem select_of_read (h : MachineInv s) (hf : s.fsm = .busy) {x : XReq} (hx : s.xreq = some x)
    (hk : x.kind = .read) (r : ReadRsp) {ρ : Resp} (hρ : rw0OpEcho ρ.rw0 = rw0OpEcho s.resp.rw0) :
    Traced (setPhase .select (setResp ρ (takeTRsp r.toTRsp s))) := by
  obtain ⟨w, ha, hl⟩ := h.acting_of_read hf hx hk r
  exact ((ha.setResp hρ).setPhase .select).select rfl (hl.congr rfl rfl rfl rfl rfl nofun) rfl

/-- A write is answered, and its settle is armed (R113, R119). -/
theorem settle_of_write (h : MachineInv s) (hf : s.fsm = .busy) {x : XReq} (hx : s.xreq = some x)
    (hk : x.kind = .write) (r : WriteRsp) {p : Phase} (hp : p.awaitsSettle = true)
    (hwin : p = .winSettle → s.phase = .winWr) :
    Traced (setPhase p (settleStart (setWrOk (decide (r = .ok)) (takeTRsp r.toTRsp s)))) := by
  obtain ⟨w, hw, hl⟩ := h.exists_open hf
  obtain ⟨hs, q, hq, rfl⟩ := h.exists_outstanding hx
  have hok : TraceOk (.trsp r.toTRsp :: s.trace) :=
    h.trace.cons (.trsp hq (fits_of_write r hk) (h.link.settled hs) h.link.not_settled)
  have hdue : settleWait (.trsp r.toTRsp :: s.trace) = .startDue := settleWait_trsp_of_write hq hk
  have hl' : latchesHold w
      (setPhase p (settleStart (setWrOk (decide (r = .ok)) (takeTRsp r.toTRsp s)))) := by
    refine hl.congr rfl rfl rfl rfl rfl ?_
    rintro (hph | hph | hph) <;> cases hph
    · cases hp
    · exact .inl (hwin rfl)
    · cases hp
  refine ⟨.of_open hf hw hl' rfl rfl (h.link.echo hf) ?_ ?_ rfl, hok.cons (.settleStart hdue rfl)⟩
  · rintro hph
    cases hph
    cases hp
  · rintro hph
    obtain ⟨before, hb⟩ := h.link.window_write (hwin hph)
    refine ⟨before, ?_⟩
    cases r <;> simp [hb, WriteRsp.toTRsp]

/-- The settle of a window write is done (R114). -/
theorem winSettleStep (h : MachineInv s) (hp : s.phase = .winSettle) (hs : s.settle = true) :
    Traced (winSettleStep s) := by
  have he := h.sequencer.engine
  obtain ⟨w, ha, hl⟩ := h.acting_of_settle (he.busy_of_phase hp (by decide)) hs
  obtain ⟨before, hb⟩ := h.link.window_settle hp
  rcases winSettleStep_cases s with ⟨hok, e⟩ | ⟨hok, ρ, hρ, e⟩
  · have hsettled : windowSettled (takeSettleDone s).trace = true := by
      simp [hb, hok, windowSettled]
    obtain ⟨c, wi, r, t, hr, hd⟩ := hl.decode_poll (he.curOp_of_phase hp rfl)
    obtain ⟨-, -, -, -, hwin⟩ := (latchesHold_poll _ hd).mp hl
    obtain rfl : wi = true := hwin (.inr (.inl hp))
    rw [e]
    exact (ha.setPhase .winRd).issue (hl.congr rfl rfl rfl rfl rfl fun _ => .inr (.inl hp))
      (belongs_windowRead hd) (okP3_windowRead hsettled) nofun nofun
  · have hns : windowSettled (takeSettleDone s).trace = false := by
      simp [hb, hok, windowSettled]
    rw [e]
    exact ((ha.setResp hρ).setPhase .select).select rfl (hl.congr rfl rfl rfl rfl rfl nofun) hns

/-- The settle of a base write is done (R120). -/
theorem baseSettleStep (h : MachineInv s) (hp : s.phase = .baseSettle) (hs : s.settle = true) :
    Traced (baseSettleStep s) := by
  have he := h.sequencer.engine
  obtain ⟨w, ha, hl⟩ := h.acting_of_settle (he.busy_of_phase hp (by decide)) hs
  have hop : opField w ≠ 2 := by
    rw [← ha.op_eq, takeSettleDone_curOp, he.curOp_of_phase hp rfl]
    decide
  obtain ⟨ρ, hρ, e⟩ := baseSettleStep_eq s
  rw [e]
  exact ((ha.setResp hρ).finish (by decide) (okP3_of_opField_ne ha.opened hop)).traced

/-! ### The reset input, and the fields no rule of the invariant reads -/

/-- The reset input leaves a machine at rest (R143). -/
theorem resetPulse (h : MachineInv s) : Resting (resetPulse s) where
  stable := nofun
  phase_none := rfl
  no_request := rfl
  no_settle := rfl
  answered := rfl
  settled := rfl
  closed := rfl
  not_settled := rfl
  ok := by
    refine h.trace.cons (.reset ?_ h.link.not_settled)
    rw [h.link.settle_eq]
    split <;> decide

/-- The schedule, the offered word, the configuration, the decoder's outputs and the draws are no
part of the invariant. -/
theorem frame (h : MachineInv s) (l : List Move) (w : Option Word) (c : Config) (o : DecOut)
    (n : Nat) : MachineInv { s with sched := l, cmd := w, cfg := c, decOut := o, draws := n } where
  sequencer := { h.sequencer with engine := { h.sequencer.engine with } }
  link := { h.link with }
  trace := h.trace

end MachineInv

/-! ### Every transition -/

/-- Every transition leaves a trace that tells the registers' story and has the properties P1 to
P6. -/
theorem Transition.traced {m : Option Move} {s s' : State} (hT : Transition m s s')
    (h : MachineInv s) : Traced s' := by
  have he := h.sequencer.engine
  cases hT with
  | stay => exact ⟨h.link, h.trace⟩
  | offer w => exact ⟨{ h.link with }, h.trace⟩
  | decoder p o => exact ⟨{ h.link with }, h.trace⟩
  | init w hm hw hd hf => exact (h.resting hf).acceptInit hd
  | poll w c wi r t hr hm hw hd hf => exact (h.resting (by simp [hf])).acceptPoll hd
  | setBase w c hm hw hd hf => exact (h.resting (by simp [hf])).acceptSetBase hd
  | pollNotReady w c wi r t hr hm hw hd hf =>
    exact ((h.resting (by rcases hf with hf | hf <;> simp [hf])).reject (by decide) _).traced
  | setBaseNotReady w c hm hw hd hf =>
    exact ((h.resting (by rcases hf with hf | hf <;> simp [hf])).reject (by decide) _).traced
  | reserved w e hm hw hf hd => exact ((h.resting hf).reject (by decide) w).traced
  | select pick hm hf hp => exact h.selectStep hp pick
  | idRd r q hm hp hx hk => exact h.idRdStep hp hx hk r
  | verRd r q hm hp hx hk => exact h.verRdStep hp hx hk r
  | measRd r q hm hp hx hk =>
    obtain ⟨ρ, hρ, e⟩ := measRdStep_eq r s
    rw [e]
    exact h.select_of_read (he.busy_of_phase hp (by decide)) hx hk r hρ
  | winRd r q hm hp hx hk =>
    obtain ⟨ρ, hρ, e⟩ := winRdStep_eq r s
    rw [e]
    exact h.select_of_read (he.busy_of_phase hp (by decide)) hx hk r hρ
  | winWr r q hm hp hx hk =>
    exact h.settle_of_write (he.busy_of_phase hp (by decide)) hx hk r rfl fun _ => hp
  | baseWr r q hm hp hx hk =>
    exact h.settle_of_write (he.busy_of_phase hp (by decide)) hx hk r rfl nofun
  | winSettle hm hp hs => exact h.winSettleStep hp hs
  | baseSettle hm hp hs => exact h.baseSettleStep hp hs
  | reset => exact h.resetPulse.traced

/-- Every transition keeps the invariant of the whole machine. -/
theorem Transition.keeps_machineInv {m : Option Move} {s s' : State} (hT : Transition m s s')
    (h : MachineInv s) : MachineInv s' :=
  ⟨hT.keeps_sequencerInv h.sequencer, (hT.traced h).link, (hT.traced h).ok⟩

/-- Settles O48: every transition keeps the engine's registers and leaves a trace that tells their
story, and the schedule is no part of the invariant. -/
theorem machineInvariantIsKept : Obligations.MachineInvariantIsKept := by
  unfold Obligations.MachineInvariantIsKept
  intro s s' h hs
  exact step_keeps MachineInv (fun s l h => h.frame l s.cmd s.cfg s.decOut s.draws)
    (fun _ _ _ hT h => hT.keeps_machineInv h) h hs

/-- The machine rests after reset (R34). -/
theorem resting_reset : Resting State.reset where
  stable := nofun
  phase_none := rfl
  no_request := rfl
  no_settle := rfl
  answered := rfl
  settled := rfl
  closed := rfl
  not_settled := rfl
  ok := ⟨rfl, rfl, rfl, rfl, rfl, rfl⟩

/-- Settles O47: the machine rests after reset, and the schedule, the offered word and the
configuration are no part of the invariant. -/
theorem machineInvariantAtReset : Obligations.MachineInvariantAtReset := by
  unfold Obligations.MachineInvariantAtReset
  intro l w c
  have h : MachineInv State.reset :=
    ⟨⟨engineInvariantAtReset, rfl, nofun⟩, resting_reset.traced.link, resting_reset.ok⟩
  exact h.frame l w c State.reset.decOut State.reset.draws

end Sys2Proof.Machine
end

section
/-! The command format in both directions (30_encoding.md R62 to R67, R77, R79): the fields of an
encoded word hold the operands, and the fields alone say which command a word is. -/

namespace Sys2Proof.Machine

/-! ### The fields of the encoded words -/

/-- OP of a POLL word (R65). -/
theorem opField_pollWord (c wi r t : Bool) (h : Byte) : opField (pollWord c wi r t h) = 2 := by
  apply BitVec.eq_of_getLsbD_eq
  intro i hi
  interval_cases i <;> simp [opField, pollWord, flagAt]

/-- The reserved bits of a POLL word (R65). -/
theorem reservedBits_pollWord (c wi r t : Bool) (h : Byte) :
    (pollWord c wi r t h).extractLsb' 16 16 = 0 := by
  apply BitVec.eq_of_getLsbD_eq
  intro i hi
  interval_cases i <;> simp [pollWord, flagAt]

/-- HOURS of a POLL word (R65). -/
theorem hours_pollWord (c wi r t : Bool) (h : Byte) :
    (pollWord c wi r t h).extractLsb' 8 8 = h := by
  apply BitVec.eq_of_getLsbD_eq
  intro i hi
  interval_cases i <;> simp [pollWord, flagAt]

/-- The request bits of a POLL word (R65). -/
theorem requests_pollWord (c wi r t : Bool) (h : Byte) :
    (pollWord c wi r t h).getLsbD 4 = c ∧ (pollWord c wi r t h).getLsbD 5 = wi ∧
      (pollWord c wi r t h).getLsbD 6 = r ∧ (pollWord c wi r t h).getLsbD 7 = t := by
  refine ⟨?_, ?_, ?_, ?_⟩ <;> simp [pollWord, flagAt]

/-- OP of a SET_BASE word (R66). -/
theorem opField_setBaseWord (c : Half) : opField (setBaseWord c) = 3 := by
  apply BitVec.eq_of_getLsbD_eq
  intro i hi
  interval_cases i <;> simp [opField, setBaseWord]

/-- The reserved bits of a SET_BASE word (R66). -/
theorem reservedBits_setBaseWord (c : Half) : (setBaseWord c).extractLsb' 4 12 = 0 := by
  apply BitVec.eq_of_getLsbD_eq
  intro i hi
  interval_cases i <;> simp [setBaseWord]

/-- CODE of a SET_BASE word (R66). -/
theorem code_setBaseWord (c : Half) : (setBaseWord c).extractLsb' 16 16 = c := by
  apply BitVec.eq_of_getLsbD_eq
  intro i hi
  interval_cases i <;> simp [setBaseWord]

/-! ### Which command a word is -/

/-- A word with a POLL's OP and no reserved bit is read as the POLL of its operand fields (R65). -/
theorem decodeCmd_of_poll_fields {w : Word} (hop : opField w = 2) (hres : w.extractLsb' 16 16 = 0) :
    decodeCmd w = .ok (.poll (w.getLsbD 4) (w.getLsbD 5) (w.getLsbD 6) (w.getLsbD 7)
      (w.extractLsb' 8 8)) := by
  rw [decodeCmd, if_neg (by rw [hop]; decide), if_pos hop, if_pos hres]

/-- A word with a SET_BASE's OP and no reserved bit is read as the SET_BASE of its code (R66). -/
theorem decodeCmd_of_setBase_fields {w : Word} (hop : opField w = 3)
    (hres : w.extractLsb' 4 12 = 0) : decodeCmd w = .ok (.setBase (w.extractLsb' 16 16)) := by
  rw [decodeCmd, if_neg (by rw [hop]; decide), if_neg (by rw [hop]; decide), if_pos hop,
    if_pos hres]

/-- INIT is one word (R64). -/
theorem decodeCmd_eq_init_iff {w : Word} : decodeCmd w = .ok .init ↔ w = 0x00000001 := by
  constructor
  · intro h
    exact (initWord_eq_of_decodeCmd h).symm
  · rintro rfl
    rfl

/-- A word is a POLL by its OP and its reserved bits (R65). -/
theorem decodeCmd_eq_poll_iff {w : Word} :
    (∃ c wi r t h, decodeCmd w = .ok (.poll c wi r t h)) ↔
      opField w = 2 ∧ w.extractLsb' 16 16 = 0 := by
  constructor
  · rintro ⟨c, wi, r, t, h, hd⟩
    obtain ⟨hop, hres, -⟩ := decodeCmd_poll_fields hd
    exact ⟨hop, hres⟩
  · rintro ⟨hop, hres⟩
    exact ⟨_, _, _, _, _, decodeCmd_of_poll_fields hop hres⟩

/-- A word is a SET_BASE by its OP and its reserved bits (R66). -/
theorem decodeCmd_eq_setBase_iff {w : Word} :
    (∃ c, decodeCmd w = .ok (.setBase c)) ↔ opField w = 3 ∧ w.extractLsb' 4 12 = 0 := by
  constructor
  · rintro ⟨c, hd⟩
    obtain ⟨hop, hres, -⟩ := decodeCmd_setBase_fields hd
    exact ⟨hop, hres⟩
  · rintro ⟨hop, hres⟩
    exact ⟨_, decodeCmd_of_setBase_fields hop hres⟩

/-- A word is reserved exactly when it is none of the three commands (R67, R79). -/
theorem decodeCmd_eq_error_iff {w : Word} :
    (∃ e, decodeCmd w = .error e) ↔
      ¬ (decodeCmd w = .ok .init ∨ (∃ c wi r t h, decodeCmd w = .ok (.poll c wi r t h)) ∨
        ∃ c, decodeCmd w = .ok (.setBase c)) := by
  cases hd : decodeCmd w with
  | error e => simp
  | ok i =>
    simp only [Except.ok.injEq, reduceCtorEq, exists_false, false_iff, not_not]
    exact decodeCmd_ok_cases hd

/-! ### The obligations -/

/-- Settles O1: the decoder reads the operands of a POLL and a SET_BASE from the fields the encoder
put them in, and FUNC from the selection the encoder named. -/
theorem decodeEncodeRoundTrip : Obligations.DecodeEncodeRoundTrip := by
  unfold Obligations.DecodeEncodeRoundTrip
  intro i
  cases i with
  | poll c wi r t h =>
    obtain ⟨hc, hwi, hr, ht⟩ := requests_pollWord c wi r t h
    have hd := decodeCmd_of_poll_fields (opField_pollWord c wi r t h)
      (reservedBits_pollWord c wi r t h)
    rwa [hc, hwi, hr, ht, hours_pollWord] at hd
  | setBase c =>
    have hd := decodeCmd_of_setBase_fields (opField_setBaseWord c) (reservedBits_setBaseWord c)
    rwa [code_setBaseWord] at hd
  | init | decIdentity | decVersion | decRainfall | decRawcount | decWorktime | encBase
  | encWindow => rfl

/-- Settles O2: a decoded command is one of three, and each encodes to the word it was read from. -/
theorem commandWordsHaveOneMeaning : Obligations.CommandWordsHaveOneMeaning := by
  unfold Obligations.CommandWordsHaveOneMeaning
  intro w i hd
  rcases decodeCmd_ok_cases hd with rfl | ⟨c, wi, r, t, h, rfl⟩ | ⟨c, rfl⟩
  · exact congrArg Encoded.cmd (initWord_eq_of_decodeCmd hd)
  · exact congrArg Encoded.cmd (pollWord_eq_of_decodeCmd hd)
  · exact congrArg Encoded.cmd (setBaseWord_eq_of_decodeCmd hd)

/-- Settles O3: each class by its fields, and the reserved words as the rest. -/
theorem commandDecoderClasses : Obligations.CommandDecoderClasses := by
  unfold Obligations.CommandDecoderClasses
  intro w
  have herr := decodeCmd_eq_error_iff (w := w)
  rw [decodeCmd_eq_init_iff, decodeCmd_eq_poll_iff, decodeCmd_eq_setBase_iff] at herr
  exact ⟨decodeCmd_eq_init_iff, decodeCmd_eq_poll_iff, decodeCmd_eq_setBase_iff, herr⟩

/-- Settles O4: the decoder evaluated on the sample words. -/
theorem sampleWordsDecode : Obligations.SampleWordsDecode := by
  unfold Obligations.SampleWordsDecode
  decide

end Sys2Proof.Machine
end

section
/-! The assembler (30_encoding.md R78): which items a POLL's counts and hours speak of, and the word
each statement assembles to. -/

namespace Sys2Proof.Machine

/-! ### The items of a POLL -/

/-- A kind of item without an operand is counted exactly when it is in the list. -/
theorem countP_pos_iff_mem {items : List PollItem} {p : PollItem → Bool} {x : PollItem}
    (hp : ∀ i, p i = true ↔ i = x) : 0 < items.countP p ↔ x ∈ items := by
  simp [List.countP_pos_iff, hp]

/-- The cumulative rainfall is counted exactly when it is in the list (R78). -/
theorem counts_cum_pos_iff {items : List PollItem} :
    0 < (PollItem.counts items).1 ↔ PollItem.cum ∈ items :=
  countP_pos_iff_mem fun i => by cases i <;> simp

/-- The windowed rainfall is counted exactly when it is in the list, with some hours (R78). -/
theorem counts_win_pos_iff {items : List PollItem} :
    0 < (PollItem.counts items).2.1 ↔ ∃ h, PollItem.win h ∈ items := by
  rw [PollItem.counts, List.countP_pos_iff]
  constructor
  · rintro ⟨i, hi, hp⟩
    cases i <;> simp at hp
    exact ⟨_, hi⟩
  · exact fun ⟨_, hi⟩ => ⟨_, hi, rfl⟩

/-- The raw count is counted exactly when it is in the list (R78). -/
theorem counts_raw_pos_iff {items : List PollItem} :
    0 < (PollItem.counts items).2.2.1 ↔ PollItem.raw ∈ items :=
  countP_pos_iff_mem fun i => by cases i <;> simp

/-- The working time is counted exactly when it is in the list (R78). -/
theorem counts_time_pos_iff {items : List PollItem} :
    0 < (PollItem.counts items).2.2.2 ↔ PollItem.time ∈ items :=
  countP_pos_iff_mem fun i => by cases i <;> simp

/-- The hours of a list whose one windowed request is `win h` (R78). -/
theorem itemsHours_of_mem {items : List PollItem} {h : Nat} (hmem : PollItem.win h ∈ items)
    (honce : (PollItem.counts items).2.1 ≤ 1) : itemsHours items = h := by
  induction items with
  | nil => cases hmem
  | cons i rest ih =>
    cases i with
    | win h' =>
      have hrest : PollItem.win h ∉ rest := by
        intro hin
        have hpos := counts_win_pos_iff.mpr ⟨h, hin⟩
        simp only [PollItem.counts, List.countP_cons] at honce hpos
        simp only [ite_true] at honce
        omega
      simp only [List.mem_cons, PollItem.win.injEq, hrest, or_false] at hmem
      exact hmem.symm
    | cum | raw | time =>
      simp only [List.mem_cons, reduceCtorEq, false_or] at hmem
      exact ih hmem (by simpa [PollItem.counts] using honce)

/-- The hours of a list with no windowed request (R78). -/
theorem itemsHours_of_not_mem {items : List PollItem} (h : ∀ n, PollItem.win n ∉ items) :
    itemsHours items = 0 := by
  induction items with
  | nil => rfl
  | cons i rest ih =>
    have hrest : ∀ n, PollItem.win n ∉ rest := fun n hn => h n (.tail i hn)
    cases i with
    | win n => exact absurd (.head rest) (h n)
    | cum | raw | time => exact ih hrest

/-- What R78 asks of a POLL's list: hours that fit, and one windowed request at most. -/
theorem wf_poll {items : List PollItem} (h : (Asm.poll items).wf = true) :
    (∀ n, PollItem.win n ∈ items → n ≤ 255) ∧ (PollItem.counts items).2.1 ≤ 1 := by
  simp only [Asm.wf, PollItem.atMostOnce, Bool.and_eq_true, List.all_eq_true,
    decide_eq_true_eq] at h
  obtain ⟨hfits, ⟨⟨-, hwin⟩, -⟩, -⟩ := h
  exact ⟨fun n hn => by simpa [PollItem.wf, hoursFits] using hfits _ hn, hwin⟩

/-! ### The words -/

/-- The word of a POLL statement (R78). -/
def pollItemsWord (items : List PollItem) : Word :=
  pollWord (decide (0 < (PollItem.counts items).1)) (decide (0 < (PollItem.counts items).2.1))
    (decide (0 < (PollItem.counts items).2.2.1)) (decide (0 < (PollItem.counts items).2.2.2))
    (BitVec.ofNat 8 (itemsHours items))

/-- A POLL's list is encoded as its counts and hours say (R78). -/
theorem encode_assemblePoll (items : List PollItem) :
    encode (assemblePoll items) = .cmd (pollItemsWord items) := rfl

/-- A statement that is not well-formed assembles to nothing (R78). -/
theorem assemble_of_not_wf {a : Asm} (h : a.wf = false) : assemble a = none := by
  simp [assemble, h]

/-- A byte fits the hours of a statement (R78). -/
theorem hoursFits_toNat (h : Byte) : hoursFits h.toNat = true :=
  decide_eq_true (Nat.le_of_lt_succ h.isLt)

/-- A well-formed POLL assembles to its list's command (R78). -/
theorem assemble_poll {items : List PollItem} (h : (Asm.poll items).wf = true) :
    assemble (.poll items) = some (assemblePoll items) := if_pos h

/-- `POLL.ALL H` assembles to the POLL of the four kinds (R78). -/
theorem assemble_pollAll (h : Byte) :
    assemble (.pollAll h.toNat) = some (.poll true true true true h) := by
  have hwf : (Asm.pollAll h.toNat).wf = true := hoursFits_toNat h
  rw [assemble, if_pos hwf]
  simp [assemblePoll, PollItem.counts, itemsHours]

/-- `POLL.WIN H` assembles to the POLL of the windowed rainfall (R78). -/
theorem assemble_pollWin (h : Byte) :
    assemble (.pollWin h.toNat) = some (.poll false true false false h) := by
  have hwf : (Asm.pollWin h.toNat).wf = true := hoursFits_toNat h
  rw [assemble, if_pos hwf]
  simp [assemblePoll, PollItem.counts, itemsHours]

/-- `SETBASE c` assembles to the SET_BASE of every 16-bit code (R78). -/
theorem assemble_setBase (c : Half) : assemble (.setBase c.toNat) = some (.setBase c) := by
  have hwf : (Asm.setBase c.toNat).wf = true := decide_eq_true (Nat.le_of_lt_succ c.isLt)
  rw [assemble, if_pos hwf]
  simp

/-- `SETBASE.MM v` assembles to the SET_BASE of the code `baseQuantize` gives (R78, R95). -/
theorem assemble_setBaseMm (v : BitVec 64) :
    assemble (.setBaseMm v) = (baseQuantize v).map Instr.setBase := rfl

/-- Settles O5: the fields of a POLL's word are its list's counts and hours, and the other words are
the encodings of what the statements assemble to. -/
theorem assembledWords : Obligations.AssembledWords := by
  unfold Obligations.AssembledWords
  refine ⟨?poll, ?pollAll, ?pollWin, ?setBase, rfl, ?setBaseMm, fun a => assemble_of_not_wf⟩
  case poll =>
    intro items hwf
    obtain ⟨hfits, honce⟩ := wf_poll hwf
    obtain ⟨hcum, hwin, hraw, htime⟩ := requests_pollWord _ _ _ _ _
    refine ⟨pollItemsWord items, by rw [assemble_poll hwf, Option.map_some, encode_assemblePoll],
      opField_pollWord .., reservedBits_pollWord .., ?_, ?_, ?_, ?_, ?hours, ?noHours⟩
    · rw [pollItemsWord, hcum, decide_eq_true_eq, counts_cum_pos_iff]
    · rw [pollItemsWord, hwin, decide_eq_true_eq, counts_win_pos_iff]
    · rw [pollItemsWord, hraw, decide_eq_true_eq, counts_raw_pos_iff]
    · rw [pollItemsWord, htime, decide_eq_true_eq, counts_time_pos_iff]
    case hours =>
      intro h hmem
      rw [pollItemsWord, hours_pollWord, itemsHours_of_mem hmem honce, BitVec.toNat_ofNat]
      exact Nat.mod_eq_of_lt (Nat.lt_succ_of_le (hfits h hmem))
    case noHours =>
      intro hnone
      rw [pollItemsWord, hours_pollWord, itemsHours_of_not_mem hnone]
      rfl
  case pollAll =>
    intro h
    rw [assemble_pollAll]
    rfl
  case pollWin =>
    intro h
    rw [assemble_pollWin]
    rfl
  case setBase =>
    intro c
    rw [assemble_setBase]
    rfl
  case setBaseMm =>
    intro v
    rw [assemble_setBaseMm, Option.map_map]
    rfl

end Sys2Proof.Machine
end

section
/-! The response header (30_encoding.md R68 to R70) as the engine writes it and as the host adapter
reads it (R80, 41_protocol.md R124). -/

namespace Sys2Proof.Machine

/-- STATUS is bits [3:0] of RW0 (R68). -/
theorem rw0Status_eq_extractLsb' (w : Word) : rw0Status w = w.extractLsb' 0 4 := by
  apply BitVec.eq_of_getLsbD_eq
  intro i hi
  simp [rw0Status, field, hi]

/-- Writing a single bit at 1 sets it and leaves every other. -/
theorem getLsbD_insertField_one (w : Word) {lo : Nat} (hlo : lo + 1 ≤ 32) (j : Nat) :
    (insertField w lo 1#1).getLsbD j = (decide (j = lo) || w.getLsbD j) := by
  rw [getLsbD_insertField w lo 1#1 hlo]
  by_cases hj : j = lo
  · simp [hj]
  · rw [if_neg (by omega), decide_eq_false hj, Bool.false_or]

/-- Writing STATUS leaves the bits above it (R68). -/
theorem getLsbD_setRw0Status_of_le (w : Word) (st : Status) {j : Nat} (hj : 4 ≤ j) :
    (setRw0Status w st).getLsbD j = w.getLsbD j := by
  rw [setRw0Status, getLsbD_insertField w 0 st.bits (by decide), if_neg (by omega)]

/-- A kind's index is one of the four (R106). -/
theorem Kind.index_lt (k : Kind) : k.index < 4 := by cases k <;> decide

/-- Writing an MST leaves the bits outside its field (R68). -/
theorem getLsbD_setRw0Mst_of_outside (w : Word) (k : Kind) (m : Mst) {j : Nat}
    (hj : j < 10 + 2 * k.index ∨ 12 + 2 * k.index ≤ j) :
    (setRw0Mst w k m).getLsbD j = w.getLsbD j := by
  have hk : k.index < 4 := k.index_lt
  rw [setRw0Mst, getLsbD_insertField w _ m.bits (by omega), if_neg (by omega)]

/-- Settles O6: a written field reads back and the bits outside it stay, each by the rule of its
field. -/
theorem responseHeaderFieldWrites : Obligations.ResponseHeaderFieldWrites := by
  unfold Obligations.ResponseHeaderFieldWrites
  refine ⟨⟨rfl, rfl, rfl, rfl, rfl, rfl⟩, ⟨rfl, rfl, rfl, rfl⟩, ?status, ?fwValid, ?idValid,
    ?mst⟩
  case status =>
    intro w st
    rw [← rw0Status_eq_extractLsb']
    exact ⟨rw0Status_setRw0Status w st, fun j => getLsbD_setRw0Status_of_le w st⟩
  case fwValid => exact fun w j => getLsbD_insertField_one w (by decide) j
  case idValid => exact fun w j => getLsbD_insertField_one w (by decide) j
  case mst =>
    exact fun w k m => ⟨rw0Mst_setRw0Mst w k m, fun j => getLsbD_setRw0Mst_of_outside w k m⟩

/-- A STATUS code names its status (R69). -/
theorem Status.ofBits_bits (st : Status) : Status.ofBits st.bits = some st := by
  cases st <;> rfl

/-- The status the host reads from a response (R69, R80). -/
theorem ofBits_rw0Status {w : Word} {st : Status} (h : w.extractLsb' 0 4 = st.bits) :
    Status.ofBits (rw0Status w) = some st := by
  rw [rw0Status_eq_extractLsb', h, Status.ofBits_bits]

/-- The host reads STATUS = OK as success (R80). -/
theorem hostStatus_of_ok {r : Resp} (h : r.rw0.extractLsb' 0 4 = Status.ok.bits) :
    hostStatus r = .ok () := by
  rw [hostStatus, ofBits_rw0Status h]

/-- The host's INIT call on a good response gives the version when FW_VALID is 1 (R80). -/
theorem hostInitialize_of_ok {r : Resp} (h : r.rw0.extractLsb' 0 4 = Status.ok.bits) :
    hostInitialize r = .ok (if rw0FwValid r.rw0 then some (r.rw1.setWidth 16) else none) := by
  rw [hostInitialize, hostStatus_of_ok h]

/-- The host's INIT call gives the fault the host reads from STATUS (R80). -/
theorem hostInitialize_of_error {r : Resp} {f : HostFault} (h : hostStatus r = .error f) :
    hostInitialize r = .error f := by
  rw [hostInitialize, h]

/-- VALID is the MST code 1 (R70). -/
theorem Mst.ofBits_eq_valid_iff {b : BitVec 2} : Mst.ofBits b = .valid ↔ b = 1 := by
  revert b
  decide

/-- Settles O57: the results of INIT and SET_BASE follow the status read from STATUS, and a POLL
kind's follows whether its MST is VALID. -/
theorem hostResultsFollowTheResponse : Obligations.HostResultsFollowTheResponse := by
  unfold Obligations.HostResultsFollowTheResponse
  refine ⟨?version, ?noVersion, ?mismatch, ?transport, ?short, ?base, ?valid, ?unavailable⟩
  case version =>
    intro r hst hfw
    have hlow : r.rw1.setWidth 16 = r.rw1.extractLsb' 0 16 :=
      BitVec.setWidth_eq_extractLsb' (by decide)
    rw [hostInitialize_of_ok hst, rw0FwValid, hfw, if_pos rfl, hlow]
  case noVersion =>
    intro r hst hfw
    rw [hostInitialize_of_ok hst, rw0FwValid, hfw, if_neg Bool.false_ne_true]
  case mismatch =>
    intro r hst
    apply hostInitialize_of_error
    rw [hostStatus, ofBits_rw0Status (st := .identityMismatch) hst]
  case transport =>
    intro r hst
    have herr : hostStatus r = .error .transportError := by
      rw [hostStatus, ofBits_rw0Status (st := .transportError) hst]
    exact ⟨hostInitialize_of_error herr, herr⟩
  case short =>
    intro r hst
    apply hostInitialize_of_error
    rw [hostStatus, ofBits_rw0Status (st := .shortRead) hst]
  case base => exact fun r hst => hostStatus_of_ok hst
  case valid => exact fun r k hm => if_pos (Mst.ofBits_eq_valid_iff.mpr hm)
  case unavailable => exact fun r k hm => if_neg (mt Mst.ofBits_eq_valid_iff.mp hm)

end Sys2Proof.Machine
end

section
/-! The step of a move that runs an instruction (30_encoding.md R72 to R74; 41_protocol.md R97,
R98): the engine's move in a stable state, and a selection on the decoder's ports. -/

namespace Sys2Proof.Machine

/-- When the engine moves, the step is the engine's own on the state without that move (R97). -/
theorem step_of_engineMoves {s : State} {rest : List Move} (h : engineMoves s rest) :
    ∃ pick, step s = engineStep pick (setSched rest s) := by
  rcases h with ⟨hs, rfl⟩ | ⟨pick, hs⟩
  · have hself : setSched [] s = s := by rw [← hs]; rfl
    exact ⟨none, by rw [hself, step, runNextMove, hs]⟩
  · exact ⟨pick, by rw [step, runNextMove, hs]; rfl⟩

/-- The engine's own step in a stable state is the acceptance of a word (R97). -/
theorem engineStep_of_stable {s : State} (h : s.fsm ≠ .busy) (pick : Option Nat) :
    engineStep pick s = fetchCmd s := by
  unfold engineStep
  cases hf : s.fsm with
  | busy => exact absurd hf h
  | uninit | ready | unusable => rfl

/-- An offered word that decodes to an instruction is that instruction's meaning (R98). -/
theorem fetchCmd_of_decode {s : State} {w : Word} {i : Instr} (hc : s.cmd = some w)
    (hd : decode (.cmd w) = .ok i) : fetchCmd s = exec i s := by
  simp [fetchCmd, hc, hd]

/-- The step that gives the decoder a selection (R72). -/
theorem step_decoder {s : State} {p : DecIn} {rest : List Move} (h : s.sched = .decoder p :: rest) :
    step s = decoderSelect p (setSched rest s) := by
  rw [step, runNextMove, h]
  rfl

/-- A selection that decodes to an instruction is that instruction's meaning (R72, R73). -/
theorem decoderSelect_of_decode {p : DecIn} {i : Instr} (h : decode (.dec p) = .ok i) (s : State) :
    decoderSelect p s = exec i s := by
  rw [decoderSelect, h]

/-- Settles O10: the move leaves the schedule, and what is left of the step is the acceptance of the
offered word or the selection on the ports. -/
theorem stepRunsDecodedInstruction : Obligations.StepRunsDecodedInstruction := by
  unfold Obligations.StepRunsDecodedInstruction
  refine ⟨?command, ?selection⟩
  case command =>
    intro s w i rest hm hf hc hd
    obtain ⟨pick, hstep⟩ := step_of_engineMoves hm
    rw [hstep, engineStep_of_stable (s := setSched rest s) hf,
      fetchCmd_of_decode (s := setSched rest s) hc hd]
    rfl
  case selection =>
    intro s p i rest hs hd
    rw [step_decoder hs, decoderSelect_of_decode hd]
    rfl

/-- FUNC = 7 is refused (R74). -/
theorem decodeDec_of_func_seven {p : DecIn} (h : p.func = 7) :
    decodeDec p = .error .reservedFunc := by
  simp [decodeDec, h]

/-- Settles O36: the reserved function drives `reservedFuncOut`, whose ports are all 0. -/
theorem reservedFunctionDrivesZero : Obligations.ReservedFunctionDrivesZero := by
  unfold Obligations.ReservedFunctionDrivesZero
  intro s p rest hs h7
  refine ⟨reservedFuncOut, ?_, rfl, rfl, rfl, rfl, rfl, rfl, rfl, rfl, rfl⟩
  rw [step_decoder hs, decoderSelect, decode, decodeDec_of_func_seven h7]
  rfl

/-- A selection is read from FUNC and the inputs its rule names alone (R72, R73). -/
theorem decodeDec_congr {p p' : DecIn} (h : sameInputs p p') : decodeDec p = decodeDec p' := by
  obtain ⟨hf, hb4, hb2, hcode, hhours⟩ := h
  unfold decodeDec
  rw [← hf]
  split_ifs with h0 h1 h2 h3 h4 h5 h6
  · obtain ⟨e0, e1, e2, e3⟩ := hb4 (.inl (by rw [h0]; rfl))
    rw [e0, e1, e2, e3]
  · obtain ⟨e0, e1⟩ := hb2 (.inl (by rw [h1]; rfl))
    rw [e0, e1]
  · obtain ⟨e0, e1, e2, e3⟩ := hb4 (.inr (.inl (by rw [h2]; rfl)))
    rw [e0, e1, e2, e3]
  · obtain ⟨e0, e1, e2, e3⟩ := hb4 (.inr (.inr (by rw [h3]; rfl)))
    rw [e0, e1, e2, e3]
  · obtain ⟨e0, e1⟩ := hb2 (.inr (by rw [h4]; rfl))
    rw [e0, e1]
  · rw [hcode (by rw [h5]; rfl)]
  · rw [hhours (by rw [h6]; rfl)]
  · rfl

/-- The outputs of a selection depend on the selection alone, not on the state (R72). -/
theorem decoderSelect_eq_driveOutputs (p : DecIn) :
    ∃ o, ∀ s, decoderSelect p s = .next (driveOutputs o s) := by
  simp only [decoderSelect, decode]
  rcases decodeDec_cases p with ⟨i, hi, o, ho⟩ | hi
  · exact ⟨o, fun s => by rw [hi]; exact ho s⟩
  · exact ⟨reservedFuncOut, fun s => by rw [hi]⟩

/-- Settles O37: selections with the same inputs are read as the same function, whose outputs do not
depend on the state. -/
theorem decoderIsCombinational : Obligations.DecoderIsCombinational := by
  unfold Obligations.DecoderIsCombinational
  intro p p' hsame
  obtain ⟨o, ho⟩ := decoderSelect_eq_driveOutputs p
  have hcongr : ∀ s, decoderSelect p' s = decoderSelect p s := by
    intro s
    simp only [decoderSelect, decode, decodeDec_congr hsame]
  refine ⟨o, fun s rest hs => ?_, fun s rest hs => ?_⟩
  · rw [step_decoder hs, ho]
    rfl
  · rw [step_decoder hs, hcongr, ho]
    rfl

end Sys2Proof.Machine
end

section
/-! The requests the engine issues (30_encoding.md R76): every transition adds none but those the
steps name, and these are T1 to T8, which the device map allows (20_memory.md R40, R43). -/

namespace Sys2Proof.Machine

/-- The requests the engine's steps name. -/
inductive EngineRequest : TReq → Prop where
  | identity : EngineRequest reqIdentity
  | version : EngineRequest reqVersion
  | measurement (k : Kind) : EngineRequest (reqMeasurement k)
  | window (h : Byte) : EngineRequest (reqWindow h)
  | base (c : Half) : EngineRequest (reqBase c)

/-- The bytes of the base write are the two halves of the code (R94). -/
theorem basePayload_eq_extractLsb' (c : Half) :
    basePayload c = [c.extractLsb' 0 8, c.extractLsb' 8 8] := by
  have h0 : baseByte0 c = c.extractLsb' 0 8 := by
    apply BitVec.eq_of_getLsbD_eq
    intro i hi
    simp [baseByte0, field, hi]
  have h1 : baseByte1 c = c.extractLsb' 8 8 := by
    apply BitVec.eq_of_getLsbD_eq
    intro i hi
    simp [baseByte1, field, hi]
  rw [basePayload, h0, h1]

/-- The engine's requests are T1 to T8 (R76). -/
theorem EngineRequest.listed {q : TReq} (h : EngineRequest q) :
    q = .read 0x00 4 ∨ q = .read 0x0A 2 ∨ q = .read 0x10 4 ∨ (∃ h, q = .write 0x26 [h]) ∨
      q = .read 0x0C 4 ∨ q = .read 0x14 4 ∨ q = .read 0x18 2 ∨
      (∃ c : Half, q = .write 0x28 [c.extractLsb' 0 8, c.extractLsb' 8 8]) := by
  cases h with
  | identity => exact .inl rfl
  | version => exact .inr (.inl rfl)
  | measurement k =>
    cases k with
    | cum => exact .inr (.inr (.inl rfl))
    | win => exact .inr (.inr (.inr (.inr (.inl rfl))))
    | raw => exact .inr (.inr (.inr (.inr (.inr (.inl rfl)))))
    | time => exact .inr (.inr (.inr (.inr (.inr (.inr (.inl rfl))))))
  | window h => exact .inr (.inr (.inr (.inl ⟨h, rfl⟩)))
  | base c =>
    refine .inr (.inr (.inr (.inr (.inr (.inr (.inr ⟨c, ?_⟩))))))
    rw [reqBase, basePayload_eq_extractLsb']
    rfl

/-- The engine's requests are whole-register accesses the map allows (R40, R43). -/
theorem EngineRequest.allowed {q : TReq} (h : EngineRequest q) :
    ∃ g : Reg, q.toXReq.addr = g.addr ∧ q.toXReq.width = g.width ∧
      g.access = (if q.toXReq.kind = .read then Access.read else Access.write) := by
  cases h with
  | identity => exact ⟨.productId, rfl, rfl, rfl⟩
  | version => exact ⟨.version, rfl, rfl, rfl⟩
  | measurement k => exact ⟨k.reg, rfl, rfl, by cases k <;> rfl⟩
  | window h => exact ⟨.rainHourWindow, rfl, rfl, rfl⟩
  | base c => exact ⟨.baseRainfall, rfl, rfl, rfl⟩

/-- An event that, if it is a request, is one the engine's steps name. -/
def RequestListed : Event → Prop
  | .treq q => EngineRequest q
  | .cmd _ | .trsp _ | .settleStart | .settleDone | .resp _ | .reset => True

/-- The requests in the trace of `s'` are those in the trace of `s` and requests the engine's steps
name. -/
def IssuesListed (s s' : State) : Prop :=
  ∀ q, .treq q ∈ s'.trace → .treq q ∈ s.trace ∨ EngineRequest q

namespace IssuesListed

/-- A step that adds no event. -/
theorem of_trace_eq {s s' : State} (ht : s'.trace = s.trace) : IssuesListed s s' := by
  intro q hq
  rw [ht] at hq
  exact .inl hq

/-- A step that adds one event. -/
theorem of_trace_cons {s s' : State} {e : Event} (ht : s'.trace = e :: s.trace)
    (he : RequestListed e) : IssuesListed s s' := by
  intro q hq
  rw [ht] at hq
  cases hq with
  | head => exact .inr he
  | tail _ hq => exact .inl hq

/-- A step that adds two events. -/
theorem of_trace_cons_cons {s s' : State} {e f : Event} (ht : s'.trace = e :: f :: s.trace)
    (he : RequestListed e) (hf : RequestListed f) : IssuesListed s s' := by
  intro q hq
  rw [ht] at hq
  cases hq with
  | head => exact .inr he
  | tail _ hq =>
    cases hq with
    | head => exact .inr hf
    | tail _ hq => exact .inl hq

end IssuesListed

open IssuesListed

/-- SELECT issues the first request of the kind it draws (R111). -/
theorem selectStep_issuesListed (pick : Option Nat) (s : State) :
    IssuesListed s (selectStep pick s) := by
  rcases selectStep_cases pick s with ⟨-, e⟩ | ⟨k, n, -, e⟩
  · rw [e]
    exact of_trace_cons rfl trivial
  · rw [e]
    cases k with
    | win => exact of_trace_cons rfl (EngineRequest.window s.hours)
    | cum => exact of_trace_cons rfl (EngineRequest.measurement .cum)
    | raw => exact of_trace_cons rfl (EngineRequest.measurement .raw)
    | time => exact of_trace_cons rfl (EngineRequest.measurement .time)

/-- ID_RD issues the version read or none (R104). -/
theorem idRdStep_issuesListed (r : ReadRsp) (s : State) : IssuesListed s (idRdStep r s) := by
  obtain ⟨ρ, -, ⟨-, -, e⟩ | ⟨-, e⟩ | ⟨-, -, e⟩⟩ := idRdStep_cases r s
  · rw [e]
    exact of_trace_cons_cons rfl trivial trivial
  · rw [e]
    exact of_trace_cons_cons rfl trivial trivial
  · rw [e]
    exact of_trace_cons_cons rfl EngineRequest.version trivial

/-- WIN_SETTLE issues the window read or none (R114). -/
theorem winSettleStep_issuesListed (s : State) : IssuesListed s (winSettleStep s) := by
  rcases winSettleStep_cases s with ⟨-, e⟩ | ⟨-, ρ, -, e⟩
  · rw [e]
    exact of_trace_cons_cons rfl (EngineRequest.measurement .win) trivial
  · rw [e]
    exact of_trace_cons rfl trivial

/-- Every transition issues none but the requests the engine's steps name (R76). -/
theorem Transition.issuesListed {m : Option Move} {s s' : State} (hT : Transition m s s') :
    IssuesListed s s' := by
  cases hT with
  | stay | offer | decoder => exact of_trace_eq rfl
  | poll | reset => exact of_trace_cons rfl trivial
  | pollNotReady | setBaseNotReady | reserved | winWr | baseWr =>
    exact of_trace_cons_cons rfl trivial trivial
  | init => exact of_trace_cons_cons rfl EngineRequest.identity trivial
  | setBase _ c => exact of_trace_cons_cons rfl (EngineRequest.base c) trivial
  | select pick => exact selectStep_issuesListed pick s
  | idRd r => exact idRdStep_issuesListed r s
  | winSettle => exact winSettleStep_issuesListed s
  | verRd r =>
    obtain ⟨ρ, -, e⟩ := verRdStep_eq r s
    rw [e]
    exact of_trace_cons_cons rfl trivial trivial
  | measRd r =>
    obtain ⟨ρ, -, e⟩ := measRdStep_eq r s
    rw [e]
    exact of_trace_cons rfl trivial
  | winRd r =>
    obtain ⟨ρ, -, e⟩ := winRdStep_eq r s
    rw [e]
    exact of_trace_cons rfl trivial
  | baseSettle =>
    obtain ⟨ρ, -, e⟩ := baseSettleStep_eq s
    rw [e]
    exact of_trace_cons_cons rfl trivial trivial

/-- Settles O43: a transition issues none but the engine's requests, which are T1 to T8 and which
the map allows. -/
theorem onlyListedRequestsAreIssued : Obligations.OnlyListedRequestsAreIssued := by
  unfold Obligations.OnlyListedRequestsAreIssued
  intro s s' hs q hq
  have hissued : IssuesListed (setSched s.sched.tail s) s' := (step_transition hs).issuesListed
  exact (hissued q hq).imp_right fun h => ⟨h.listed, h.allowed⟩

end Sys2Proof.Machine
end

section
/-! The decoder functions (40_decoder.md R81 to R96): the numbers the little-endian unpacks stand for,
the identity fields as fields of the word, and what each function drives on the decoder's ports. -/

namespace Sys2Proof.Machine

/-! ### The unpacks as numbers -/

/-- Joining to a value `x` below 2^k a value shifted up by k adds it at its place. -/
theorem toNat_or_shiftLeft {n k a b : Nat} {x y : BitVec n} (hx : x.toNat = a) (hy : y.toNat = b)
    (ha : a < 2 ^ k) (hb : 2 ^ k * b < 2 ^ n) : (x ||| y <<< k).toNat = a + 2 ^ k * b := by
  subst hx hy
  have hshift : (y <<< k).toNat = 2 ^ k * y.toNat := by
    rw [BitVec.toNat_shiftLeft, Nat.shiftLeft_eq, mul_comm, Nat.mod_eq_of_lt hb]
  rw [BitVec.toNat_or, hshift, Nat.or_comm, ← Nat.two_pow_add_eq_or_of_lt ha, add_comm]

/-- A byte keeps its value in a wider container (R7). -/
theorem toNat_setWidth_byte {n : Nat} (hn : 8 ≤ n) (b : Byte) :
    (b.setWidth n).toNat = b.toNat := BitVec.toNat_setWidth_of_le hn

/-- LE16 as a number (R81). -/
theorem toNat_le16 (b0 b1 : Byte) : (le16 b0 b1).toNat = b0.toNat + 2 ^ 8 * b1.toNat := by
  have hwide := toNat_setWidth_byte (n := 16) (by decide)
  exact toNat_or_shiftLeft (hwide b0) (hwide b1) b0.isLt (by omega)

/-- LE32 as a number (R82). -/
theorem toNat_le32 (b0 b1 b2 b3 : Byte) : (le32 b0 b1 b2 b3).toNat =
    b0.toNat + 2 ^ 8 * b1.toNat + 2 ^ 16 * b2.toNat + 2 ^ 24 * b3.toNat := by
  have hwide := toNat_setWidth_byte (n := 32) (by decide)
  have h2 := toNat_or_shiftLeft (hwide b0) (hwide b1) b0.isLt (by omega)
  have h3 := toNat_or_shiftLeft h2 (hwide b2) (k := 16) (by omega) (by omega)
  exact toNat_or_shiftLeft h3 (hwide b3) (k := 24) (by omega) (by omega)

/-- The six low bits of a byte. -/
theorem toNat_and_3F (b : Byte) : (b &&& 0x3F).toNat = b.toNat % 2 ^ 6 :=
  Nat.and_two_pow_sub_one_eq_mod b.toNat 6

/-- The two high bits of a byte under the mask and shift of R84, moved down and to their place. -/
theorem highBits_shiftLeft (b : Byte) :
    (b &&& 0xC0).setWidth 20 <<< 10 = (b >>> 6).setWidth 20 <<< 16 := by
  apply BitVec.eq_of_getLsbD_eq
  intro i hi
  interval_cases i <;> simp

/-- The product field as a number (R84). -/
theorem toNat_productId (b0 b1 b3 : Byte) : (productId b0 b1 b3).toNat =
    b0.toNat + 2 ^ 8 * b1.toNat + 2 ^ 16 * (b3.toNat / 2 ^ 6) := by
  have hwide := toNat_setWidth_byte (n := 20) (by decide)
  have h2 := toNat_or_shiftLeft (hwide b0) (hwide b1) b0.isLt (by omega)
  have h3 : ((b3 >>> 6).setWidth 20).toNat = b3.toNat / 2 ^ 6 := by
    rw [hwide, BitVec.toNat_ushiftRight, Nat.shiftRight_eq_div_pow]
  rw [productId, highBits_shiftLeft]
  exact toNat_or_shiftLeft h2 h3 (by omega) (by omega)

/-- The vendor field as a number (R84). -/
theorem toNat_vendorId (b2 b3 : Byte) :
    (vendorId b2 b3).toNat = b2.toNat + 2 ^ 8 * (b3.toNat % 2 ^ 6) := by
  have hwide := toNat_setWidth_byte (n := 16) (by decide)
  exact toNat_or_shiftLeft (hwide b2) ((hwide _).trans (toNat_and_3F b3)) b2.isLt (by omega)


/-! ### The identity fields as fields of the word -/

/-- product_id in its container, as w[15:0] and w[31:30] (R84, R86). -/
def wordProduct (w : Word) : BitVec 20 :=
  (w.extractLsb' 0 16).setWidth 20 ||| (w.extractLsb' 30 2).setWidth 20 <<< 16

/-- vendor_id in its container, as w[29:16] (R84, R86). -/
def wordVendor (w : Word) : Half := (w.extractLsb' 16 14).setWidth 16

/-- A field of a value as a number. -/
theorem toNat_setWidth_extractLsb' {n : Nat} (w : Word) (lo len : Nat) (h : len ≤ n) :
    ((w.extractLsb' lo len).setWidth n).toNat = w.toNat / 2 ^ lo % 2 ^ len := by
  rw [BitVec.toNat_setWidth_of_le h, BitVec.extractLsb'_toNat, Nat.shiftRight_eq_div_pow]

/-- The source's formula for product_id picks its bits from the word (R84). -/
theorem productId_eq_wordProduct (b0 b1 b2 b3 : Byte) :
    productId b0 b1 b3 = wordProduct (le32 b0 b1 b2 b3) := by
  apply BitVec.eq_of_toNat_eq
  have hlow := toNat_setWidth_extractLsb' (n := 20) (le32 b0 b1 b2 b3) 0 16 (by decide)
  have hhigh := toNat_setWidth_extractLsb' (n := 20) (le32 b0 b1 b2 b3) 30 2 (by decide)
  rw [wordProduct, toNat_or_shiftLeft hlow hhigh (by omega) (by omega), toNat_productId, toNat_le32]
  omega

/-- The source's formula for vendor_id picks its bits from the word (R84). -/
theorem vendorId_eq_wordVendor (b0 b1 b2 b3 : Byte) :
    vendorId b2 b3 = wordVendor (le32 b0 b1 b2 b3) := by
  apply BitVec.eq_of_toNat_eq
  rw [wordVendor, toNat_setWidth_extractLsb' _ 16 14 (by decide), toNat_vendorId, toNat_le32]
  omega

/-- The low bits of product_id (R86). -/
theorem getLsbD_wordProduct_low (w : Word) {j : Nat} (hj : j < 16) :
    (wordProduct w).getLsbD j = w.getLsbD j := by
  have : j < 20 := by omega
  simp [wordProduct, hj, this]

/-- The high bits of product_id (R86). -/
theorem getLsbD_wordProduct_high (w : Word) {j : Nat} (hj : j < 2) :
    (wordProduct w).getLsbD (16 + j) = w.getLsbD (30 + j) := by
  have : 16 + j < 20 := by omega
  simp [wordProduct, hj, this]

/-- product_id has 18 bits (R84). -/
theorem getLsbD_wordProduct_of_le (w : Word) {j : Nat} (hj : 18 ≤ j) :
    (wordProduct w).getLsbD j = false := by
  have h16 : ¬ j < 16 := by omega
  have h2 : ¬ j - 16 < 2 := by omega
  simp [wordProduct, h16, h2]

/-- The bits of vendor_id (R86). -/
theorem getLsbD_wordVendor (w : Word) (j : Nat) :
    (wordVendor w).getLsbD j = (decide (j < 14) && w.getLsbD (16 + j)) := by
  by_cases hj : j < 14
  · have : j < 16 := by omega
    simp [wordVendor, hj, this]
  · simp [wordVendor, hj]

/-- A change of the word changes product_id by the change's own field. -/
theorem wordProduct_xor (a b : Word) : wordProduct (a ^^^ b) = wordProduct a ^^^ wordProduct b := by
  apply BitVec.eq_of_getLsbD_eq
  intro j _
  rw [BitVec.getLsbD_xor]
  rcases Nat.lt_or_ge j 16 with hlow | hlow
  · simp only [getLsbD_wordProduct_low _ hlow, BitVec.getLsbD_xor]
  rcases Nat.lt_or_ge j 18 with hhigh | hhigh
  · obtain ⟨i, rfl⟩ := Nat.exists_eq_add_of_le hlow
    have hi : i < 2 := by omega
    simp only [getLsbD_wordProduct_high _ hi, BitVec.getLsbD_xor]
  · simp only [getLsbD_wordProduct_of_le _ hhigh, Bool.xor_self]

/-- A change of the word changes vendor_id by the change's own field. -/
theorem wordVendor_xor (a b : Word) : wordVendor (a ^^^ b) = wordVendor a ^^^ wordVendor b := by
  apply BitVec.eq_of_getLsbD_eq
  intro j _
  simp only [getLsbD_wordVendor, BitVec.getLsbD_xor, Bool.and_xor_distrib_left]

/-- A single bit of the word is a single bit of one of the two fields (R86). -/
theorem wordFields_bit : ∀ n < 32,
    (∃ j < 18, wordProduct (1#32 <<< n) = 1#20 <<< j ∧ wordVendor (1#32 <<< n) = 0) ∨
    (∃ j < 14, wordProduct (1#32 <<< n) = 0 ∧ wordVendor (1#32 <<< n) = 1#16 <<< j) := by
  decide

/-- The accepted identity, as a word, has the expected fields (R85). -/
theorem wordFields_accepted :
    wordProduct 0x734300C0#32 = 0x100C0#20 ∧ wordVendor 0x734300C0#32 = 0x3343#16 := by decide

/-- One changed bit of the accepted identity is one changed bit of one field (R86). -/
theorem wordFields_accepted_xor_bit {n : Nat} (hn : n < 32) :
    ((∃ j, j < 18 ∧ wordProduct (0x734300C0#32 ^^^ 1#32 <<< n) = 0x100C0#20 ^^^ 1#20 <<< j) ∧
      wordVendor (0x734300C0#32 ^^^ 1#32 <<< n) = 0x3343) ∨
    (wordProduct (0x734300C0#32 ^^^ 1#32 <<< n) = 0x100C0 ∧
      ∃ j, j < 14 ∧ wordVendor (0x734300C0#32 ^^^ 1#32 <<< n) = 0x3343#16 ^^^ 1#16 <<< j) := by
  obtain ⟨hproduct, hvendor⟩ := wordFields_accepted
  rw [wordProduct_xor, wordVendor_xor, hproduct, hvendor]
  rcases wordFields_bit n hn with ⟨j, hj, hp, hv⟩ | ⟨j, hj, hp, hv⟩
  · exact .inl ⟨⟨j, hj, congrArg _ hp⟩, hv ▸ BitVec.xor_zero⟩
  · exact .inr ⟨hp ▸ BitVec.xor_zero, j, hj, congrArg _ hv⟩

/-- A changed bit changes the word. -/
theorem accepted_xor_bit_ne : ∀ n < 32, 0x734300C0#32 ^^^ 1#32 <<< n ≠ 0x734300C0 := by decide

/-! ### The identity -/

/-- The comparison is with the two expected values (R85). -/
theorem idCheck_iff (p : BitVec 20) (v : Half) :
    idCheck p v = true ↔ v = 0x3343 ∧ p = 0x100C0 := idCheck_eq_true

/-- Two identities with the same fields have the same bytes (R86). -/
theorem identity_injective {b0 b1 b2 b3 c0 c1 c2 c3 : Byte}
    (hp : productId b0 b1 b3 = productId c0 c1 c3) (hv : vendorId b2 b3 = vendorId c2 c3) :
    b0 = c0 ∧ b1 = c1 ∧ b2 = c2 ∧ b3 = c3 := by
  have hp' := congrArg BitVec.toNat hp
  have hv' := congrArg BitVec.toNat hv
  simp only [toNat_productId, toNat_vendorId] at hp' hv'
  simp only [← BitVec.toNat_inj]
  omega

/-- Every 18-bit product_id and 14-bit vendor_id are the fields of some bytes (R86). -/
theorem identity_surjective (p : BitVec 18) (v : BitVec 14) : ∃ b0 b1 b2 b3 : Byte,
    productId b0 b1 b3 = p.setWidth 20 ∧ vendorId b2 b3 = v.setWidth 16 := by
  refine ⟨.ofNat 8 p.toNat, .ofNat 8 (p.toNat / 2 ^ 8), .ofNat 8 v.toNat,
    .ofNat 8 (p.toNat / 2 ^ 16 * 2 ^ 6 + v.toNat / 2 ^ 8), ?_, ?_⟩
  · apply BitVec.eq_of_toNat_eq
    rw [toNat_productId, BitVec.toNat_setWidth_of_le (by decide)]
    simp only [BitVec.toNat_ofNat]
    omega
  · apply BitVec.eq_of_toNat_eq
    rw [toNat_vendorId, BitVec.toNat_setWidth_of_le (by decide)]
    simp only [BitVec.toNat_ofNat]
    omega

/-- The check passes for the bytes C0 00 43 73 alone (R85). -/
theorem idCheck_bytes_iff (b0 b1 b2 b3 : Byte) :
    idCheck (productId b0 b1 b3) (vendorId b2 b3) = true ↔
      b0 = 0xC0 ∧ b1 = 0x00 ∧ b2 = 0x43 ∧ b3 = 0x73 := by
  rw [idCheck_iff]
  constructor
  · rintro ⟨hv, hp⟩
    exact identity_injective (c0 := 0xC0) (c1 := 0x00) (c2 := 0x43) (c3 := 0x73) hp hv
  · rintro ⟨rfl, rfl, rfl, rfl⟩
    exact ⟨rfl, rfl⟩

/-- Two words with the same value have the same bytes (R82). -/
theorem le32_inj {b0 b1 b2 b3 c0 c1 c2 c3 : Byte} :
    le32 b0 b1 b2 b3 = le32 c0 c1 c2 c3 ↔ b0 = c0 ∧ b1 = c1 ∧ b2 = c2 ∧ b3 = c3 := by
  simp only [← BitVec.toNat_inj, toNat_le32]
  omega

/-- The check passes for the word 0x734300C0 alone (R85). -/
theorem idCheck_word_iff (b0 b1 b2 b3 : Byte) :
    idCheck (productId b0 b1 b3) (vendorId b2 b3) = true ↔ le32 b0 b1 b2 b3 = 0x734300C0 :=
  (idCheck_bytes_iff b0 b1 b2 b3).trans
    (le32_inj (c0 := 0xC0) (c1 := 0x00) (c2 := 0x43) (c3 := 0x73)).symm

/-- Settles O28: the check is a comparison with the two expected values, and only one list of bytes
has them as its fields. -/
theorem onlyOneIdentityMatches : Obligations.OnlyOneIdentityMatches := by
  unfold Obligations.OnlyOneIdentityMatches
  refine ⟨idCheck_iff, fun b0 b1 b2 b3 s s' h => ?_⟩
  obtain rfl : driveOutputs (decIdentityOut b0 b1 b2 b3) s = s' := by cases h; rfl
  exact ⟨idCheck_bytes_iff b0 b1 b2 b3, idCheck_word_iff b0 b1 b2 b3⟩

/-- Settles O29: the fields are bit fields of the word, and a one-bit change of the word changes them
by the fields of that bit. -/
theorem identityMapIsBijective : Obligations.IdentityMapIsBijective := by
  unfold Obligations.IdentityMapIsBijective
  refine ⟨fun _ _ _ _ _ _ _ _ => identity_injective, identity_surjective, ?bits, ?flip⟩
  case bits =>
    intro b0 b1 b2 b3
    rw [productId_eq_wordProduct b0 b1 b2 b3, vendorId_eq_wordVendor b0 b1 b2 b3]
    refine ⟨fun j => getLsbD_wordProduct_low _, fun j => getLsbD_wordProduct_high _, fun j hj => ?_⟩
    rw [getLsbD_wordVendor, decide_eq_true hj, Bool.true_and]
  case flip =>
    intro b0 b1 b2 b3 n hn hw
    constructor
    · rw [productId_eq_wordProduct b0 b1 b2 b3, vendorId_eq_wordVendor b0 b1 b2 b3, hw]
      exact wordFields_accepted_xor_bit hn
    · rw [Bool.eq_false_iff, ne_eq, idCheck_word_iff, hw]
      exact accepted_xor_bit_ne n hn

/-- Settles O27: the fields by the formula are the word's fields, and their numbers bound them. -/
theorem identityIsDecoded : Obligations.IdentityIsDecoded := by
  unfold Obligations.IdentityIsDecoded
  intro b0 b1 b2 b3 s
  refine ⟨decIdentityOut b0 b1 b2 b3, rfl, rfl, rfl, toNat_le32 b0 b1 b2 b3,
    (Bool.decide_and _ _).symm, productId_eq_wordProduct b0 b1 b2 b3,
    vendorId_eq_wordVendor b0 b1 b2 b3, ?product, ?vendor⟩
  case product =>
    have h := toNat_productId b0 b1 b3
    change (productId b0 b1 b3).toNat ≤ _
    omega
  case vendor =>
    have h := toNat_vendorId b2 b3
    change (vendorId b2 b3).toNat ≤ _
    omega

/-! ### The counts, the version and the payloads -/

/-- Settles O31: the count is LE32 as a number, and its millimetres the quotient by RAIN_SCALE. -/
theorem rainfallIsDecoded : Obligations.RainfallIsDecoded := by
  unfold Obligations.RainfallIsDecoded
  intro b0 b1 b2 b3 s
  exact ⟨decRainfallOut b0 b1 b2 b3, rfl, toNat_le32 b0 b1 b2 b3, Rat.mkRat_eq_div _ _⟩

/-- Settles O32: the count is LE32 as a number. -/
theorem rawCountIsDecoded : Obligations.RawCountIsDecoded := by
  unfold Obligations.RawCountIsDecoded
  intro b0 b1 b2 b3 s
  exact ⟨decRawcountOut b0 b1 b2 b3, rfl, toNat_le32 b0 b1 b2 b3⟩

/-- A 16-bit value on the 32-bit port as a number (R87, R91). -/
theorem toNat_le16_setWidth (b0 b1 : Byte) :
    ((le16 b0 b1).setWidth 32).toNat = b0.toNat + 2 ^ 8 * b1.toNat :=
  (BitVec.toNat_setWidth_of_le (by decide)).trans (toNat_le16 b0 b1)

/-- Settles O33: the minutes are LE16 as a number, and their hours the quotient by TIME_SCALE. -/
theorem workTimeIsDecoded : Obligations.WorkTimeIsDecoded := by
  unfold Obligations.WorkTimeIsDecoded
  intro b0 b1 s
  exact ⟨decWorktimeOut b0 b1, rfl, toNat_le16_setWidth b0 b1, Rat.mkRat_eq_div _ _⟩

/-- FIELD is the extraction of its bits (R83). -/
theorem field_eq_extractLsb' {n : Nat} (v : BitVec n) (hi lo : Nat) :
    field v hi lo = v.extractLsb' lo (hi - lo + 1) := by
  apply BitVec.eq_of_toNat_eq
  rw [field, BitVec.toNat_setWidth, BitVec.toNat_ushiftRight, BitVec.extractLsb'_toNat]

/-- A field of a 16-bit value, read from the 32-bit port it stands on (R87). -/
theorem extractLsb'_setWidth_half (v : Half) {lo len : Nat} (h : lo + len ≤ 16) :
    (v.setWidth 32).extractLsb' lo len = v.extractLsb' lo len := by
  apply BitVec.eq_of_getLsbD_eq
  intro i hi
  have hport : lo + i < 32 := by omega
  simp [hi, hport]

/-- The bits of LE16 (R81). -/
theorem getLsbD_le16 (b0 b1 : Byte) (j : Nat) :
    (le16 b0 b1).getLsbD j = if j < 8 then b0.getLsbD j else b1.getLsbD (j - 8) := by
  by_cases hj : j < 8
  · have : j < 16 := by omega
    simp [le16, hj, this]
  · have h0 : b0.getLsbD j = false := BitVec.getLsbD_of_ge _ _ (by omega)
    by_cases h16 : j < 16
    · simp [le16, hj, h16, h0]
    · have h1 : b1.getLsbD (j - 8) = false := BitVec.getLsbD_of_ge _ _ (by omega)
      simp [le16, hj, h16, h1]

/-- A field in the low byte of LE16 (R81, R87). -/
theorem extractLsb'_le16_low (b0 b1 : Byte) {lo len : Nat} (h : lo + len ≤ 8) :
    (le16 b0 b1).extractLsb' lo len = b0.extractLsb' lo len := by
  apply BitVec.eq_of_getLsbD_eq
  intro i hi
  have hlow : lo + i < 8 := by omega
  simp [getLsbD_le16, hi, hlow]

/-- A field in the high byte of LE16 (R81, R87). -/
theorem extractLsb'_le16_high (b0 b1 : Byte) (lo len : Nat) :
    (le16 b0 b1).extractLsb' (8 + lo) len = b1.extractLsb' lo len := by
  apply BitVec.eq_of_getLsbD_eq
  intro i hi
  have hhigh : ¬ 8 + lo + i < 8 := by omega
  have hplace : 8 + lo + i - 8 = lo + i := by omega
  simp [getLsbD_le16, hi, hhigh, hplace]

/-- A nibble of the version, as a field of the 32-bit port (R87). -/
theorem field_versionRaw (b0 b1 : Byte) {hi lo : Nat} (h : lo + (hi - lo + 1) ≤ 16) :
    field (versionRaw b0 b1) hi lo =
      ((versionRaw b0 b1).setWidth 32).extractLsb' lo (hi - lo + 1) := by
  rw [field_eq_extractLsb', extractLsb'_setWidth_half _ h]

/-- Settles O30: each nibble is a field of the word, and by LE16 a field of one byte. -/
theorem versionIsDecoded : Obligations.VersionIsDecoded := by
  unfold Obligations.VersionIsDecoded
  intro b0 b1 s
  have major : versionMajor (versionRaw b0 b1) = b1.extractLsb' 4 4 :=
    (field_eq_extractLsb' _ 15 12).trans (extractLsb'_le16_high b0 b1 4 4)
  have minor : versionMinor (versionRaw b0 b1) = b1.extractLsb' 0 4 :=
    (field_eq_extractLsb' _ 11 8).trans (extractLsb'_le16_high b0 b1 0 4)
  have patch : versionPatch (versionRaw b0 b1) = b0.extractLsb' 4 4 :=
    (field_eq_extractLsb' _ 7 4).trans (extractLsb'_le16_low b0 b1 (by decide))
  have build : versionBuild (versionRaw b0 b1) = b0.extractLsb' 0 4 :=
    (field_eq_extractLsb' _ 3 0).trans (extractLsb'_le16_low b0 b1 (by decide))
  exact ⟨decVersionOut b0 b1, rfl, toNat_le16_setWidth b0 b1,
    congrArg (BitVec.setWidth 20) (field_versionRaw b0 b1 (hi := 15) (lo := 12) (by decide)),
    congrArg (BitVec.setWidth 16) (field_versionRaw b0 b1 (hi := 11) (lo := 8) (by decide)),
    field_versionRaw b0 b1 (by decide), field_versionRaw b0 b1 (by decide),
    congrArg (BitVec.setWidth 20) major, congrArg (BitVec.setWidth 16) minor, patch, build⟩

/-- Settles O34: the two bytes are the halves of the code, and LE32 joins them again. -/
theorem baseIsEncoded : Obligations.BaseIsEncoded := by
  unfold Obligations.BaseIsEncoded
  intro c s
  obtain ⟨hlow, hrest⟩ := List.cons.inj (basePayload_eq_extractLsb' c)
  obtain ⟨hhigh, -⟩ := List.cons.inj hrest
  refine ⟨encBaseOut c, rfl, hlow, hhigh, rfl, ?_⟩
  apply BitVec.eq_of_toNat_eq
  change (le32 (baseByte0 c) (baseByte1 c) 0 0).toNat = _
  rw [toNat_le32, hlow, hhigh]
  simp only [BitVec.extractLsb'_toNat, BitVec.toNat_setWidth, Nat.shiftRight_eq_div_pow,
    BitVec.ofNat_eq_ofNat, BitVec.toNat_ofNat]
  omega

/-- Settles O35: `encWindowOut` passes HOURS on. -/
theorem windowIsEncoded : Obligations.WindowIsEncoded := by
  unfold Obligations.WindowIsEncoded
  exact fun h s => ⟨encWindowOut h, rfl, rfl, rfl⟩

end Sys2Proof.Machine
end


section
/-! The binary64 renderings (40_decoder.md R93, R95): what `nearestF64` encodes, as a rounding of a
rational number, and the code `baseQuantize` makes of the rounded product. -/

namespace Sys2Proof.Machine

/-! ### Rounding a quotient -/

/-- m * 2^e is the binary64 number that `r` rounds to: within half a unit in the last place, with no
finite binary64 number nearer, and with an even significand where another one is equally near. -/
structure RoundsTo (r : Rat) (m : Nat) (e : Int) : Prop where
  close : |(m : Rat) * 2 ^ e - r| ≤ (r + 1) / 2 ^ 53
  nearest : ∀ neg m' e', m' < 2 ^ 53 → -1074 ≤ e' →
    |(m : Rat) * 2 ^ e - r| ≤ |dyadicRat neg m' e' - r| ∧
    (|(m : Rat) * 2 ^ e - r| = |dyadicRat neg m' e' - r| →
      dyadicRat neg m' e' = m * 2 ^ e ∨ m % 2 = 0)

/-- The integer `nearestF64` rounds `p / q` to, in units of 2^(roundingExponent p q). -/
def roundedSignificand (p q : Nat) : Nat :=
  nearestEven (scaleDown p q (roundingExponent p q)).1 (scaleDown p q (roundingExponent p q)).2

/-- `nearestF64` encodes the rounded significand at the rounding exponent. -/
theorem nearestF64_eq_encodeF64 (neg : Bool) {p : Nat} (hp : 0 < p) (q : Nat) :
    nearestF64 neg p q = encodeF64 neg (roundedSignificand p q) (roundingExponent p q) :=
  if_neg hp.ne'

/-- Powers of two multiply by adding their exponents. -/
theorem two_pow_mul_zpow (n : Nat) (e : Int) : (2 : Rat) ^ n * 2 ^ e = 2 ^ ((n : Int) + e) := by
  rw [zpow_add₀ two_ne_zero, zpow_natCast]

/-- A distance in units of 2^e. -/
theorem abs_mul_zpow_sub (a r : Rat) (e : Int) : |a * 2 ^ e - r| = |a - r / 2 ^ e| * 2 ^ e := by
  have hpos : (0 : Rat) < 2 ^ e := by positivity
  rw [← abs_of_pos hpos, ← abs_mul, abs_of_pos hpos, sub_mul, div_mul_cancel₀ _ hpos.ne']

/-- The rounded significand is within one half of the scaled quotient. -/
theorem roundedSignificand_half (p : Nat) {q : Nat} (hq : 0 < q) :
    |(roundedSignificand p q : Rat) - (p : Rat) / q / 2 ^ roundingExponent p q| ≤ 1 / 2 := by
  obtain ⟨hden, hquot⟩ := scaleDown_spec p hq (roundingExponent p q)
  rw [← hquot]
  exact (nearestEven_half _ hden).1

/-- No multiple of the rounding unit is nearer, and where another one is equally near, the rounded
significand is even. -/
theorem roundedSignificand_nearest (p : Nat) {q : Nat} (hq : 0 < q) (k : Int) :
    |(roundedSignificand p q : Rat) * 2 ^ roundingExponent p q - (p : Rat) / q|
      ≤ |(k : Rat) * 2 ^ roundingExponent p q - (p : Rat) / q| ∧
    (|(roundedSignificand p q : Rat) * 2 ^ roundingExponent p q - (p : Rat) / q|
      = |(k : Rat) * 2 ^ roundingExponent p q - (p : Rat) / q| →
      k = roundedSignificand p q ∨ roundedSignificand p q % 2 = 0) := by
  obtain ⟨hden, hquot⟩ := scaleDown_spec p hq (roundingExponent p q)
  have hpos : (0 : Rat) < 2 ^ roundingExponent p q := by positivity
  obtain ⟨hle, htie⟩ := nearestEven_nearest (scaleDown p q (roundingExponent p q)).1 hden k
  rw [hquot] at hle htie
  rw [abs_mul_zpow_sub, abs_mul_zpow_sub]
  exact ⟨mul_le_mul_of_nonneg_right hle hpos.le, fun h => htie (mul_right_cancel₀ hpos.ne' h)⟩

/-- The quotient is below 2^53 units. -/
theorem quotient_lt_unit {p q : Nat} (hp : 0 < p) (hq : 0 < q) :
    (p : Rat) / q < 2 ^ 53 * 2 ^ roundingExponent p q := by
  obtain ⟨-, hup, -⟩ := roundingExponent_spec hp hq
  rwa [zpow_add₀ two_ne_zero, mul_comm] at hup

/-- Unless the unit is the least one, the quotient is not below 2^52 units. -/
theorem unit_le_quotient {p q : Nat} (hp : 0 < p) (hq : 0 < q) (he : roundingExponent p q ≠ -1074) :
    2 ^ 52 * 2 ^ roundingExponent p q ≤ (p : Rat) / q := by
  obtain ⟨-, -, hlo⟩ := roundingExponent_spec hp hq
  have hlo := hlo.resolve_left he
  rwa [zpow_add₀ two_ne_zero, mul_comm] at hlo

/-- The rounded significand is at most 2^53, and below 2^52 only at the exponent of the subnormal
numbers. -/
theorem roundedSignificand_bounds {p q : Nat} (hp : 0 < p) (hq : 0 < q) :
    roundedSignificand p q ≤ 2 ^ 53 ∧
    (roundedSignificand p q < 2 ^ 52 → roundingExponent p q = -1074) := by
  have hpos : (0 : Rat) < 2 ^ roundingExponent p q := by positivity
  obtain ⟨hlow, hhigh⟩ := abs_le.mp (roundedSignificand_half p hq)
  constructor
  · have hup := (div_lt_iff₀ hpos).mpr (quotient_lt_unit hp hq)
    have hlt : (roundedSignificand p q : Rat) < (2 ^ 53 + 1 : Nat) := by push_cast; linarith
    exact Nat.lt_succ_iff.mp (by exact_mod_cast hlt)
  · intro hlt
    by_contra he
    have hlo := (le_div_iff₀ hpos).mpr (unit_le_quotient hp hq he)
    have hsucc : (roundedSignificand p q : Rat) + 1 ≤ 2 ^ 52 := by exact_mod_cast hlt
    linarith

/-- The rounding error is at most half a unit, which is small beside the quotient or beside 1. -/
theorem roundedSignificand_close {p q : Nat} (hp : 0 < p) (hq : 0 < q) :
    |(roundedSignificand p q : Rat) * 2 ^ roundingExponent p q - (p : Rat) / q|
      ≤ ((p : Rat) / q + 1) / 2 ^ 53 := by
  have hpos : (0 : Rat) < 2 ^ roundingExponent p q := by positivity
  have hquot : (0 : Rat) ≤ (p : Rat) / q := by positivity
  have hunit : 2 ^ 52 * 2 ^ roundingExponent p q ≤ (p : Rat) / q + 1 := by
    by_cases he : roundingExponent p q = -1074
    · rw [he, two_pow_mul_zpow]
      exact (zpow_le_one_of_nonpos₀ one_le_two (by norm_num)).trans (by linarith)
    · linarith [unit_le_quotient hp hq he]
  rw [abs_mul_zpow_sub]
  linarith [mul_le_mul_of_nonneg_right (roundedSignificand_half p hq) hpos.le]

/-- A finite binary64 number with an exponent below e is less than 2^52 * 2^e. -/
theorem dyadicRat_lt_of_exp_lt (neg : Bool) {m : Nat} {e e' : Int} (hm : m < 2 ^ 53) (he : e' < e) :
    dyadicRat neg m e' < 2 ^ 52 * 2 ^ e := by
  have hm' : (m : Rat) < 2 ^ 53 := by exact_mod_cast hm
  have hsign : dyadicRat neg m e' ≤ m * 2 ^ e' := by
    have : (0 : Rat) ≤ m * 2 ^ e' := by positivity
    cases neg <;> simp only [dyadicRat, if_true, Bool.false_eq_true, if_false] <;> linarith
  have hexp : (2 : Rat) ^ (e' + 1) ≤ 2 ^ e := zpow_le_zpow_right₀ one_le_two he
  calc dyadicRat neg m e' ≤ m * 2 ^ e' := hsign
    _ < 2 ^ 53 * 2 ^ e' := by gcongr
    _ = 2 ^ 52 * 2 ^ (e' + 1) := by rw [zpow_add_one₀ two_ne_zero]; ring
    _ ≤ 2 ^ 52 * 2 ^ e := by gcongr

/-- A finite binary64 number with an exponent not below e is a multiple of 2^e. -/
theorem exists_int_dyadicRat {e e' : Int} (he : e ≤ e') (neg : Bool) (m : Nat) :
    ∃ k : Int, dyadicRat neg m e' = k * 2 ^ e := by
  obtain ⟨n, rfl⟩ := Int.le.dest he
  refine ⟨(if neg then -1 else 1) * m * 2 ^ n, ?_⟩
  rw [dyadicRat, zpow_add₀ two_ne_zero, zpow_natCast]
  cases neg <;> push_cast <;> ring

/-- A finite binary64 number finer than the unit is less than 2^52 units, and that is no nearer to the
quotient than the rounded significand is. -/
theorem roundedSignificand_nearer_of_exp_lt {p q : Nat} (hp : 0 < p) (hq : 0 < q) {neg : Bool}
    {m' : Nat} {e' : Int} (hm' : m' < 2 ^ 53) (he' : -1074 ≤ e') (hlt : e' < roundingExponent p q) :
    |(roundedSignificand p q : Rat) * 2 ^ roundingExponent p q - (p : Rat) / q|
      < |dyadicRat neg m' e' - (p : Rat) / q| := by
  have hlo := unit_le_quotient hp hq (by omega)
  have hy := dyadicRat_lt_of_exp_lt neg hm' hlt
  have hgrid := (roundedSignificand_nearest p hq ((2 ^ 52 : Nat) : Int)).1
  rw [Int.cast_natCast, Nat.cast_pow, Nat.cast_ofNat] at hgrid
  calc _ ≤ |2 ^ 52 * 2 ^ roundingExponent p q - (p : Rat) / q| := hgrid
    _ = (p : Rat) / q - 2 ^ 52 * 2 ^ roundingExponent p q := by
      rw [abs_sub_comm, abs_of_nonneg (sub_nonneg.mpr hlo)]
    _ < (p : Rat) / q - dyadicRat neg m' e' := by linarith
    _ ≤ |dyadicRat neg m' e' - (p : Rat) / q| := by
      rw [abs_sub_comm]
      exact le_abs_self _

/-- The quotient rounds to the rounded significand at the rounding exponent. -/
theorem roundsTo_roundedSignificand {p q : Nat} (hp : 0 < p) (hq : 0 < q) :
    RoundsTo ((p : Rat) / q) (roundedSignificand p q) (roundingExponent p q) := by
  refine ⟨roundedSignificand_close hp hq, fun neg m' e' hm' he' => ?_⟩
  rcases lt_or_ge e' (roundingExponent p q) with hfine | hcoarse
  · have hlt := roundedSignificand_nearer_of_exp_lt hp hq (neg := neg) hm' he' hfine
    exact ⟨hlt.le, fun heq => absurd heq hlt.ne⟩
  · obtain ⟨k, hk⟩ := exists_int_dyadicRat hcoarse neg m'
    obtain ⟨hle, htie⟩ := roundedSignificand_nearest p hq k
    rw [hk]
    exact ⟨hle, fun heq => (htie heq).imp_left fun h => by rw [h, Int.cast_natCast]⟩

/-- The same number with another significand, even where the first is. -/
theorem RoundsTo.congr {r : Rat} {m n : Nat} {e f : Int} (h : RoundsTo r m e)
    (heq : (n : Rat) * 2 ^ f = m * 2 ^ e) (heven : m % 2 = 0 → n % 2 = 0) : RoundsTo r n f := by
  refine ⟨heq ▸ h.close, fun neg m' e' hm' he' => ?_⟩
  obtain ⟨hle, htie⟩ := h.nearest neg m' e' hm' he'
  rw [heq]
  exact ⟨hle, fun h => (htie h).imp_right heven⟩

/-- Zero is a binary64 number. -/
theorem roundsTo_zero (e : Int) : RoundsTo 0 0 e :=
  ⟨by norm_num, fun _ _ _ _ _ => ⟨by simp, fun _ => .inr rfl⟩⟩

/-! ### The encoding of a rounded quotient -/

/-- What the encoding of a rounded number of size `r` is: the number, or the infinity of its sign where
`r` is too large. -/
def RoundedEncoding (r : Rat) (neg : Bool) (y : BitVec 64) : Prop :=
  (f64Value y = .inf neg ∧ 2 ^ 1023 ≤ r) ∨
    ∃ m e, f64Value y = .finite neg m e ∧ RoundsTo r m e

/-- A quotient rounded at an exponent past that of the large finite numbers is itself large. -/
theorem two_pow_le_quotient {p q : Nat} (hp : 0 < p) (hq : 0 < q)
    (he : 971 ≤ roundingExponent p q) : (2 : Rat) ^ 1023 ≤ (p : Rat) / q :=
  calc (2 : Rat) ^ 1023 = 2 ^ (1023 : Int) := (zpow_natCast 2 1023).symm
    _ ≤ 2 ^ (((52 : Nat) : Int) + roundingExponent p q) :=
      zpow_le_zpow_right₀ one_le_two (by omega)
    _ = 2 ^ 52 * 2 ^ roundingExponent p q := (two_pow_mul_zpow 52 _).symm
    _ ≤ (p : Rat) / q := unit_le_quotient hp hq (by omega)

/-- `nearestF64` encodes the number its quotient rounds to, or an infinity. -/
theorem nearestF64_roundedEncoding (neg : Bool) (p : Nat) {q : Nat} (hq : 0 < q) :
    RoundedEncoding ((p : Rat) / q) neg (nearestF64 neg p q) := by
  rcases Nat.eq_zero_or_pos p with rfl | hp
  · refine .inr ⟨0, -1074, ?_, by simpa using roundsTo_zero _⟩
    rw [nearestF64, if_pos rfl, f64Value_encodeF64 neg (by decide) le_rfl fun _ => rfl]
    rfl
  obtain ⟨hmax, hsub⟩ := roundedSignificand_bounds hp hq
  have hround := roundsTo_roundedSignificand hp hq
  rw [nearestF64_eq_encodeF64 neg hp, RoundedEncoding,
    f64Value_encodeF64 neg hmax (roundingExponent_spec hp hq).1 hsub]
  by_cases hcarry : roundedSignificand p q = 2 ^ 53
  · rw [if_pos hcarry]
    by_cases he : roundingExponent p q ≤ 970
    · rw [if_pos he]
      refine .inr ⟨_, _, rfl, hround.congr ?_ fun _ => rfl⟩
      rw [hcarry, zpow_add_one₀ two_ne_zero]
      push_cast
      ring
    · rw [if_neg he]
      exact .inl ⟨rfl, two_pow_le_quotient hp hq (by omega)⟩
  · rw [if_neg hcarry]
    by_cases he : roundingExponent p q ≤ 971
    · rw [if_pos he]
      exact .inr ⟨_, _, rfl, hround⟩
    · rw [if_neg he]
      exact .inl ⟨rfl, two_pow_le_quotient hp hq (by omega)⟩

/-- The size of a signed number. -/
theorem abs_dyadicRat (neg : Bool) (m : Nat) (e : Int) : |dyadicRat neg m e| = m * 2 ^ e := by
  cases neg <;> simp [dyadicRat]

/-- A sign in front of a signed number changes its sign. -/
theorem sign_mul_dyadicRat (neg neg' : Bool) (m : Nat) (e : Int) :
    (if neg then -1 else 1) * dyadicRat neg' m e = dyadicRat (neg ^^ neg') m e := by
  cases neg <;> cases neg' <;> simp [dyadicRat]

/-- The distance from a signed number is that from its size, with the sign moved to the other. -/
theorem abs_dyadicRat_sub_sign_mul (neg neg' : Bool) (m : Nat) (e : Int) (r : Rat) :
    |dyadicRat neg' m e - (if neg then -1 else 1) * r| = |dyadicRat (neg ^^ neg') m e - r| := by
  rw [← sign_mul_dyadicRat]
  cases neg
  · simp
  · rw [← abs_neg]
    simp only [if_true]
    ring_nf

/-- Numbers of one sign are as far apart as their sizes. -/
theorem abs_dyadicRat_sub_same_sign (neg : Bool) (m : Nat) (e : Int) (r : Rat) :
    |dyadicRat neg m e - (if neg then -1 else 1) * r| = |m * 2 ^ e - r| := by
  rw [abs_dyadicRat_sub_sign_mul, Bool.xor_self]
  simp [dyadicRat]

/-- A number that the size rounds to, with the sign, is the nearest to the signed number. -/
theorem isNearestF64_of_roundsTo {r : Rat} {neg : Bool} {y : BitVec 64} {m : Nat} {e : Int}
    (hy : f64Value y = .finite neg m e) (h : RoundsTo r m e) :
    isNearestF64 ((if neg then -1 else 1) * r) y := by
  refine ⟨neg, m, e, hy, fun x neg' m' e' hx => ?_⟩
  obtain ⟨hm', he'⟩ := f64Value_finite_bounds hx
  rw [abs_dyadicRat_sub_same_sign, abs_dyadicRat_sub_sign_mul]
  obtain ⟨hle, htie⟩ := h.nearest (neg ^^ neg') m' e' hm' he'
  refine ⟨hle, fun h => (htie h).imp_left fun heq => ?_⟩
  calc dyadicRat neg' m' e' = (if neg then -1 else 1) * dyadicRat (neg ^^ neg') m' e' := by
        rw [sign_mul_dyadicRat, ← Bool.xor_assoc, Bool.xor_self, Bool.false_xor]
    _ = (if neg then -1 else 1) * (m * 2 ^ e) := by rw [heq]
    _ = dyadicRat neg m e := (mul_assoc _ _ _).symm

/-- Below 2^1023 a rounded encoding is the nearest binary64 number. -/
theorem RoundedEncoding.isNearestF64 {r : Rat} {neg : Bool} {y : BitVec 64}
    (h : RoundedEncoding r neg y) (hr : r < 2 ^ 1023) :
    isNearestF64 ((if neg then -1 else 1) * r) y := by
  rcases h with ⟨-, hlarge⟩ | ⟨m, e, hy, hround⟩
  · exact absurd hr hlarge.not_gt
  · exact isNearestF64_of_roundsTo hy hround

/-- A quotient of natural numbers below 2^1023, as a rational number. -/
theorem quotient_lt_of_lt_mul {p q : Nat} (hq : 0 < q) (h : p < 2 ^ 1023 * q) :
    (p : Rat) / q < 2 ^ 1023 := by
  rw [div_lt_iff₀ (Nat.cast_pos.mpr hq)]
  calc (p : Rat) < ((2 ^ 1023 * q : Nat) : Rat) := Nat.cast_lt.mpr h
    _ = 2 ^ 1023 * (q : Rat) := by rw [Nat.cast_mul, Nat.cast_pow, Nat.cast_ofNat]

/-- The rendering of a quotient below 2^1023 is the nearest binary64 number (R93). -/
theorem isNearestF64_toF64 {p q : Nat} (hq : 0 < q) (h : (p : Rat) / q < 2 ^ 1023) :
    isNearestF64 ((p : Rat) / q) (toF64 p q) := by
  have hnear := (nearestF64_roundedEncoding false p hq).isNearestF64 h
  rwa [if_neg Bool.false_ne_true, one_mul] at hnear

/-- A 32-bit count over any divisor is below 2^1023. -/
theorem word_div_lt (c : Word) {q : Nat} (hq : 0 < q) : (c.toNat : Rat) / q < 2 ^ 1023 :=
  calc (c.toNat : Rat) / q ≤ c.toNat := div_le_self (Nat.cast_nonneg _) (by exact_mod_cast hq)
    _ < 2 ^ 32 := by exact_mod_cast c.isLt
    _ ≤ 2 ^ 1023 := pow_le_pow_right₀ one_le_two (by decide)

/-- Settles O56: `nearestF64` encodes the number the quotient rounds to, and no finite binary64 number
is nearer. -/
theorem roundingIsNearestTiesToEven : Obligations.RoundingIsNearestTiesToEven := by
  unfold Obligations.RoundingIsNearestTiesToEven
  refine ⟨fun neg p q hq h => ?_, fun p q hq h => ?_, fun c => ⟨?_, ?_⟩⟩
  · exact (nearestF64_roundedEncoding neg p hq).isNearestF64 (quotient_lt_of_lt_mul hq h)
  · exact isNearestF64_toF64 hq (quotient_lt_of_lt_mul hq h)
  · exact isNearestF64_toF64 (q := 10000) (by decide) (word_div_lt c (by decide))
  · exact isNearestF64_toF64 (q := 60) (by decide) (word_div_lt c (by decide))

/-! ### The code of a base rainfall -/

/-- The binary64 product encodes what the exact product rounds to (R95). -/
theorem mulF64_roundedEncoding (neg : Bool) (mant : Nat) (exp : Int) :
    RoundedEncoding |dyadicRat neg mant exp * 10000| neg (mulF64 neg mant exp 10000) := by
  obtain ⟨hden, hquot⟩ := dyadic_spec (mant * 10000) exp
  have hsize : |dyadicRat neg mant exp * 10000| = ((mant * 10000 : Nat) : Rat) * 2 ^ exp := by
    rw [abs_mul, abs_dyadicRat, Nat.cast_mul, Nat.cast_ofNat, Nat.abs_ofNat]
    ring
  rw [hsize, ← hquot]
  exact nearestF64_roundedEncoding neg _ hden

/-- A signed number is its size with its sign. -/
theorem sign_mul_abs_dyadicRat (neg : Bool) (m : Nat) (e : Int) :
    (if neg then -1 else 1) * |dyadicRat neg m e| = dyadicRat neg m e := by
  rw [abs_dyadicRat, dyadicRat, mul_assoc]

/-- The exact product has the sign of the value. -/
theorem sign_mul_abs_product (neg : Bool) (m : Nat) (e : Int) :
    (if neg then -1 else 1) * |dyadicRat neg m e * 10000| = dyadicRat neg m e * 10000 := by
  rw [abs_mul, ← mul_assoc, sign_mul_abs_dyadicRat, Nat.abs_ofNat]

/-- NaN is refused (R95). -/
theorem baseQuantize_of_nan {v : BitVec 64} (h : f64Value v = .nan) : baseQuantize v = none := by
  rw [baseQuantize, h]

/-- An infinity is refused (R95). -/
theorem baseQuantize_of_inf {v : BitVec 64} {neg : Bool} (h : f64Value v = .inf neg) :
    baseQuantize v = none := by
  rw [baseQuantize, h]

/-- A product past the largest finite number is refused (R95). -/
theorem baseQuantize_of_inf_product {v : BitVec 64} {neg negP : Bool} {mant : Nat} {exp : Int}
    (h : f64Value v = .finite neg mant exp)
    (hp : f64Value (mulF64 neg mant exp 10000) = .inf negP) :
    baseQuantize v = none := by
  simp only [baseQuantize, h, Config.rainScale, hp]

/-- A test of the product's fraction against k / 2, as a test of its size. -/
theorem mul_dyadic_le_iff (k : Nat) (neg : Bool) (m : Nat) (e : Int) :
    k * (dyadic m e).2 ≤ 2 * (dyadic m e).1 ↔ (k : Rat) / 2 ≤ |dyadicRat neg m e| := by
  obtain ⟨hden, hquot⟩ := dyadic_spec m e
  rw [abs_dyadicRat, ← hquot, div_le_div_iff₀ two_pos (Nat.cast_pos.mpr hden), mul_comm 2]
  exact_mod_cast Iff.rfl

/-- The rounded size of the product, from its fraction. -/
theorem dyadic_div_eq_floor (neg : Bool) (m : Nat) (e : Int) :
    (2 * (dyadic m e).1 + (dyadic m e).2) / (2 * (dyadic m e).2)
      = ⌊|dyadicRat neg m e| + 1 / 2⌋₊ := by
  obtain ⟨hden, hquot⟩ := dyadic_spec m e
  have hden' : ((dyadic m e).2 : Rat) ≠ 0 := Nat.cast_ne_zero.mpr hden.ne'
  rw [abs_dyadicRat, ← hquot, ← Nat.floor_div_eq_div (K := Rat)]
  congr 1
  push_cast
  field_simp

/-- A signed number is at most -a exactly when it is negative and of size at least a. -/
theorem dyadicRat_le_neg_iff {a : Rat} (ha : 0 < a) (neg : Bool) (m : Nat) (e : Int) :
    dyadicRat neg m e ≤ -a ↔ neg = true ∧ a ≤ |dyadicRat neg m e| := by
  have hsign := sign_mul_abs_dyadicRat neg m e
  have hsize := abs_nonneg (dyadicRat neg m e)
  cases neg with
  | false =>
    rw [if_neg Bool.false_ne_true] at hsign
    exact iff_of_false (by linarith) fun h => Bool.false_ne_true h.1
  | true =>
    rw [if_pos rfl] at hsign
    exact ⟨fun h => ⟨rfl, by linarith⟩, fun ⟨_, h⟩ => by linarith⟩

/-- A finite product is refused at and below -0.5 and from 65535.5 on, and otherwise its size is rounded
to the nearest integer, half up (R95). -/
theorem baseQuantize_of_finite_product {v : BitVec 64} {neg negP : Bool} {mant m : Nat}
    {exp e : Int}
    (h : f64Value v = .finite neg mant exp)
    (hp : f64Value (mulF64 neg mant exp 10000) = .finite negP m e) :
    baseQuantize v = if dyadicRat negP m e ≤ -(1 / 2) ∨ 131071 / 2 ≤ dyadicRat negP m e then none
      else some (BitVec.ofNat 16 ⌊|dyadicRat negP m e| + 1 / 2⌋₊) := by
  have hhalf : (dyadic m e).2 ≤ 2 * (dyadic m e).1 ↔ 1 / 2 ≤ |dyadicRat negP m e| := by
    simpa using mul_dyadic_le_iff 1 negP m e
  have hlow := dyadicRat_le_neg_iff one_half_pos negP m e
  have hhigh := mul_dyadic_le_iff 131071 negP m e
  rw [Nat.cast_ofNat] at hhigh
  simp only [baseQuantize, h, Config.rainScale, hp, dyadic_div_eq_floor negP, Bool.and_eq_true,
    decide_eq_true_eq, hhalf, hhigh, ← hlow]
  by_cases hneg : dyadicRat negP m e ≤ -(1 / 2)
  · rw [if_pos hneg, if_pos (.inl hneg)]
  · have hsize : 131071 / 2 ≤ |dyadicRat negP m e| ↔ 131071 / 2 ≤ dyadicRat negP m e := by
      rw [le_abs, or_iff_left]
      intro h
      linarith
    simp only [hneg, hsize, if_false, false_or]

/-- What a number of size 131072 or more rounds to is past the last code. -/
theorem RoundsTo.large {r : Rat} {m : Nat} {e : Int} (h : RoundsTo r m e) (hr : 131072 ≤ r) :
    131071 / 2 ≤ (m : Rat) * 2 ^ e := by
  have hclose := (abs_le.mp h.close).1
  linarith

/-- A product of size 2^1023 or more is refused (R95). -/
theorem baseQuantize_of_large_product {v : BitVec 64} {neg : Bool} {mant : Nat} {exp : Int}
    (h : f64Value v = .finite neg mant exp) (hx : 2 ^ 1023 ≤ |dyadicRat neg mant exp * 10000|) :
    baseQuantize v = none := by
  rcases mulF64_roundedEncoding neg mant exp with ⟨hp, -⟩ | ⟨m, e, hp, hround⟩
  · exact baseQuantize_of_inf_product h hp
  · have hbig : (131072 : Rat) ≤ |dyadicRat neg mant exp * 10000| :=
      calc (131072 : Rat) = 2 ^ 17 := by norm_num
        _ ≤ 2 ^ 1023 := pow_le_pow_right₀ one_le_two (by decide)
        _ ≤ _ := hx
    have hlarge := hround.large hbig
    rw [← abs_dyadicRat neg] at hlarge
    rw [baseQuantize_of_finite_product h hp, if_pos]
    rcases le_abs.mp hlarge with hpos | hneg
    · exact .inr hpos
    · exact .inl (by linarith)

/-- The rounding error of a finite product. -/
theorem abs_product_sub_le {neg negP : Bool} {mant m : Nat} {exp e : Int}
    (hp : f64Value (mulF64 neg mant exp 10000) = .finite negP m e) :
    |dyadicRat negP m e - dyadicRat neg mant exp * 10000|
      ≤ (|dyadicRat neg mant exp * 10000| + 1) / 2 ^ 53 := by
  rcases mulF64_roundedEncoding neg mant exp with ⟨hinf, -⟩ | ⟨m', e', hfin, hround⟩
  · rw [hp] at hinf
    cases hinf
  · obtain ⟨rfl, rfl, rfl⟩ := F64Value.finite.inj (hp.symm.trans hfin)
    rw [← sign_mul_abs_product, abs_dyadicRat_sub_same_sign, sign_mul_abs_product]
    exact hround.close

/-- The code of an accepted product: the integer nearest to its size, half up (R95). -/
theorem accepted_code {p : Rat} (hlow : -(1 / 2) < p) (hhigh : p < 131071 / 2) :
    ⌊|p| + 1 / 2⌋₊ < 2 ^ 16 ∧ (p < 0 → ⌊|p| + 1 / 2⌋₊ = 0) ∧
      |(⌊|p| + 1 / 2⌋₊ : Rat) - p| ≤ 1 / 2 := by
  rcases lt_or_ge p 0 with hneg | hpos
  · have hzero : ⌊|p| + 1 / 2⌋₊ = 0 := by
      rw [Nat.floor_eq_zero, abs_of_neg hneg]
      linarith
    rw [hzero]
    refine ⟨by decide, fun _ => rfl, ?_⟩
    rw [Nat.cast_zero, zero_sub, abs_neg, abs_of_neg hneg]
    linarith
  · rw [abs_of_nonneg hpos]
    have hle := Nat.floor_le (show 0 ≤ p + 1 / 2 by linarith)
    have hlt := Nat.lt_floor_add_one (p + 1 / 2)
    refine ⟨?_, fun hneg => absurd hneg hpos.not_gt, abs_le.mpr ⟨by linarith, by linarith⟩⟩
    rw [Nat.floor_lt (by linarith), Nat.cast_pow, Nat.cast_ofNat]
    linarith

/-- The code over 10000 is as near to the value as the two roundings allow. -/
theorem code_close {c p x : Rat} (hcode : |c - p| ≤ 1 / 2)
    (hround : |p - x * 10000| ≤ (|x * 10000| + 1) / 2 ^ 53) (hp : |p| ≤ 131072) :
    |c / 10000 - x| ≤ 1 / 20000 + 1 / 10 ^ 12 := by
  have hscale : c / 10000 - x = (c - x * 10000) / 10000 := by ring
  rw [hscale, abs_div, Nat.abs_ofNat]
  generalize x * 10000 = y at *
  have hsize := abs_sub_abs_le_abs_sub y p
  rw [abs_sub_comm y p] at hsize
  have htriangle := abs_sub_le c p y
  linarith

/-- Settles O58: the tests on the product's fraction are those of R95, and the code is within one half
of the product, whose rounding error is far smaller. -/
theorem baseCodeIsTheRoundedProduct : Obligations.BaseCodeIsTheRoundedProduct := by
  unfold Obligations.BaseCodeIsTheRoundedProduct
  refine ⟨fun v => baseQuantize_of_nan, fun v neg => baseQuantize_of_inf, ?finite⟩
  rintro v neg mant exp x hv rfl
  refine ⟨?nearest, baseQuantize_of_large_product hv, ?product⟩
  case nearest =>
    intro hsmall
    have hnear := (mulF64_roundedEncoding neg mant exp).isNearestF64 hsmall
    rwa [sign_mul_abs_product] at hnear
  case product =>
    rintro negP m e p hp rfl
    rw [baseQuantize_of_finite_product hv hp, neg_div]
    refine ⟨fun hrefused => if_pos hrefused, fun hlow hhigh => ?_⟩
    rw [if_neg (not_or.mpr ⟨hlow.not_ge, hhigh.not_ge⟩)]
    have hround := abs_product_sub_le hp
    obtain ⟨hfits, hzero, hhalf⟩ := accepted_code hlow hhigh
    generalize dyadicRat negP m e = p at *
    have hcode : (BitVec.ofNat 16 ⌊|p| + 1 / 2⌋₊).toNat = ⌊|p| + 1 / 2⌋₊ := by
      rw [BitVec.toNat_ofNat, Nat.mod_eq_of_lt hfits]
    refine ⟨_, rfl, ?_, fun hneg => by rw [hzero hneg]; rfl, ?_⟩
    · rw [hcode]
      exact Int.natCast_floor_eq_floor (by positivity)
    · rw [hcode]
      exact code_close hhalf hround (abs_le.mpr ⟨by linarith, by linarith⟩)

end Sys2Proof.Machine
end

section
/-! The step of each agent's move (41_protocol.md R97, R98, R122): the Host's offer, the engine's wait,
the Transport's answer and the timer's signal, with the moves that change nothing but the schedule. -/

namespace Sys2Proof.Machine

/-! ### The Host's move -/

/-- The step of the Host's move (R98). -/
theorem step_host {s : State} {w : Word} {rest : List Move} (h : s.sched = .host w :: rest) :
    step s = .next (hostOffer w (setSched rest s)) := by
  rw [step, runNextMove, h]
  rfl

/-- A word offered on an empty channel stands there (R98). -/
theorem hostOffer_of_none {s : State} (h : s.cmd = none) (w : Word) : hostOffer w s = putCmd w s := by
  simp [hostOffer, h]

/-- While a word stands on the channel no other is offered (R147). -/
theorem hostOffer_of_some {s : State} {v : Word} (h : s.cmd = some v) (w : Word) :
    hostOffer w s = s := by
  simp [hostOffer, h]

/-- Settles O59: the Host's move by whether a word stands on the channel. -/
theorem hostOffersOneWordAtATime : Obligations.HostOffersOneWordAtATime := by
  unfold Obligations.HostOffersOneWordAtATime
  intro s w rest hs
  refine ⟨fun hc => ?_, fun v hc => ?_⟩
  · rw [step_host hs, hostOffer_of_none (s := setSched rest s) hc]
    rfl
  · rw [step_host hs, hostOffer_of_some (s := setSched rest s) hc]
    rfl

/-! ### The engine's move -/

/-- With no word offered there is nothing to accept (R97). -/
theorem fetchCmd_of_none {s : State} (h : s.cmd = none) : fetchCmd s = .next s := by
  simp [fetchCmd, h]

/-- An offered reserved word is rejected BAD_COMMAND (R99). -/
theorem fetchCmd_of_error {s : State} {w : Word} {e : DecodeError} (hc : s.cmd = some w)
    (hd : decode (.cmd w) = .error e) : fetchCmd s = .next (reject .badCommand w s) := by
  simp [fetchCmd, hc, hd]

/-- A busy engine outside SELECT waits (R97). -/
theorem engineStep_of_waiting {s : State} (hf : s.fsm = .busy) (hp : s.phase ≠ .select)
    (pick : Option Nat) : engineStep pick s = .next s := by
  unfold engineStep
  rw [hf]
  cases hph : s.phase with
  | select => exact absurd hph hp
  | none | idRd | verRd | measRd | winWr | winSettle | winRd | baseWr | baseSettle => rfl

/-- In phase SELECT the engine's own step is the SELECT step (R97, R111). -/
theorem engineStep_of_select {s : State} (hf : s.fsm = .busy) (hp : s.phase = .select)
    (pick : Option Nat) : engineStep pick s = .next (selectStep pick s) := by
  simp [engineStep, hf, hp]

/-- Settles O9: the engine's step in a stable state takes the offered word, and there is none. -/
theorem stableEngineWithNothingOfferedStaysPut :
    Obligations.StableEngineWithNothingOfferedStaysPut := by
  unfold Obligations.StableEngineWithNothingOfferedStaysPut
  intro s rest hm hf hc
  obtain ⟨pick, hstep⟩ := step_of_engineMoves hm
  rw [hstep, engineStep_of_stable (s := setSched rest s) hf,
    fetchCmd_of_none (s := setSched rest s) hc]
  rfl

/-- Settles O12: the engine's own step in a phase that waits leaves the state as it is. -/
theorem waitingEngineStaysPut : Obligations.WaitingEngineStaysPut := by
  unfold Obligations.WaitingEngineStaysPut
  intro s rest hm hf hp
  obtain ⟨pick, hstep⟩ := step_of_engineMoves hm
  rw [hstep, engineStep_of_waiting (s := setSched rest s) hf hp]
  rfl

/-- Settles O17: a stable engine takes the word, which does not decode, and rejects it. -/
theorem reservedWordIsRejected : Obligations.ReservedWordIsRejected := by
  unfold Obligations.ReservedWordIsRejected
  intro s w e rest hm hf hc hd
  obtain ⟨pick, hstep⟩ := step_of_engineMoves hm
  refine ⟨_, rfl, ?_⟩
  rw [hstep, engineStep_of_stable (s := setSched rest s) hf,
    fetchCmd_of_error (s := setSched rest s) hc hd]
  rfl

/-! ### The Transport's and the timer's moves -/

/-- The step of the Transport's move (R122). -/
theorem step_transport {s : State} {r : TRsp} {rest : List Move}
    (h : s.sched = .transport r :: rest) :
    step s = .next (transportAnswer r (setSched rest s)) := by
  rw [step, runNextMove, h]
  rfl

/-- The step of the Settle Timer's move (R122). -/
theorem step_timer {s : State} {rest : List Move} (h : s.sched = .timer :: rest) :
    step s = .next (timerSignal (setSched rest s)) := by
  rw [step, runNextMove, h]
  rfl

/-- An answer that fits no outstanding request changes nothing (R122). -/
theorem transportAnswer_of_unfit {s : State} {r : TRsp}
    (h : ∀ q, s.xreq = some q → r.fits q = false) : transportAnswer r s = s := by
  unfold transportAnswer
  cases hx : s.xreq with
  | none => rfl
  | some q =>
    have hfit : r.fits q = false := h q hx
    cases hk : q.kind with
    | read =>
      have hnone : r.asRead = none := by simpa [TRsp.fits, hk] using hfit
      simp [hk, hnone]
    | write =>
      have hnone : r.asWrite = none := by simpa [TRsp.fits, hk] using hfit
      simp [hk, hnone]

/-- A signal without an armed settle changes nothing (R122). -/
theorem timerSignal_of_unarmed {s : State} (h : s.settle = false) : timerSignal s = s := by
  unfold timerSignal
  rw [h]

/-- Settles O13: the Transport's and the timer's moves where no answer or signal is due. -/
theorem unsolicitedAnswersDoNothing : Obligations.UnsolicitedAnswersDoNothing := by
  unfold Obligations.UnsolicitedAnswersDoNothing
  refine ⟨fun s r rest hs hfit => ?_, fun s rest hs hset => ?_⟩
  · rw [step_transport hs, transportAnswer_of_unfit (s := setSched rest s) hfit]
    rfl
  · rw [step_timer hs, timerSignal_of_unarmed (s := setSched rest s) hset]
    rfl

end Sys2Proof.Machine
end

section
/-! The meanings of the three command words by the operating state (41_protocol.md R98, R100, R103,
R110, R118): accepted, rejected NOT_READY, or held. -/

namespace Sys2Proof.Machine

/-- INIT is accepted in every stable state (R103). -/
theorem exec_init_of_stable {s : State} (h : s.fsm ≠ .busy) :
    exec .init s = .next (acceptInit s) := by
  unfold exec execInit
  cases hf : s.fsm with
  | busy => exact absurd hf h
  | uninit | ready | unusable => rfl

/-- POLL is accepted in READY (R110). -/
theorem exec_poll_of_ready {s : State} (h : s.fsm = .ready) (c wi r t : Bool) (hr : Byte) :
    exec (.poll c wi r t hr) s = .next (acceptPoll c wi r t hr s) := by
  simp [exec, execPoll, h]

/-- SET_BASE is accepted in READY (R118). -/
theorem exec_setBase_of_ready {s : State} (h : s.fsm = .ready) (c : Half) :
    exec (.setBase c) s = .next (acceptSetBase c s) := by
  simp [exec, execSetBase, h]

/-- POLL is rejected in UNINIT and UNUSABLE (R100). -/
theorem exec_poll_of_not_ready {s : State} (h : s.fsm = .uninit ∨ s.fsm = .unusable)
    (c wi r t : Bool) (hr : Byte) :
    exec (.poll c wi r t hr) s = .next (reject .notReady (pollWord c wi r t hr) s) := by
  rcases h with h | h <;> simp [exec, execPoll, h]

/-- SET_BASE is rejected in UNINIT and UNUSABLE (R100). -/
theorem exec_setBase_of_not_ready {s : State} (h : s.fsm = .uninit ∨ s.fsm = .unusable) (c : Half) :
    exec (.setBase c) s = .next (reject .notReady (setBaseWord c) s) := by
  rcases h with h | h <;> simp [exec, execSetBase, h]

/-- A busy engine holds every command word (R55, R98). -/
theorem exec_of_busy {s : State} {w : Word} {i : Instr} (hf : s.fsm = .busy)
    (hd : decodeCmd w = .ok i) : exec i s = .next s := by
  rcases decodeCmd_ok_cases hd with rfl | ⟨c, wi, r, t, hr, rfl⟩ | ⟨c, rfl⟩
  · simp [exec, execInit, hf]
  · simp [exec, execPoll, hf]
  · simp [exec, execSetBase, hf]

/-- Settles O14: the acceptance step of INIT, written out. -/
theorem initIsAccepted : Obligations.InitIsAccepted := by
  unfold Obligations.InitIsAccepted
  intro s hf
  rw [exec_init_of_stable hf]
  rfl

/-- PENDING's field of a POLL word holds the request bits (R65, R77). -/
theorem requestBits_eq_extractLsb' (c wi r t : Bool) (h : Byte) :
    requestBits c wi r t = (pollWord c wi r t h).extractLsb' 4 4 := by
  apply BitVec.eq_of_getLsbD_eq
  intro i hi
  interval_cases i <;> simp [requestBits, pollWord, flagAt]

/-- Settles O15: the word is the POLL's encoding, whose fields the acceptance step loads. -/
theorem pollIsAccepted : Obligations.PollIsAccepted := by
  unfold Obligations.PollIsAccepted
  rintro s c wi r t h _ hf ⟨⟩
  obtain ⟨hc, hwi, hr, ht⟩ := requests_pollWord c wi r t h
  refine ⟨hc, hwi, hr, ht, hours_pollWord c wi r t h, ?_⟩
  rw [exec_poll_of_ready hf, ← requestBits_eq_extractLsb', hours_pollWord]
  rfl

/-- Settles O16: the word is the SET_BASE's encoding, and the payload holds the halves of CODE. -/
theorem setBaseIsAccepted : Obligations.SetBaseIsAccepted := by
  unfold Obligations.SetBaseIsAccepted
  rintro s c _ hf ⟨⟩
  refine ⟨code_setBaseWord c, ?_⟩
  rw [exec_setBase_of_ready hf, code_setBaseWord, ← basePayload_eq_extractLsb']
  rfl

/-- Settles O18: of the instructions a word carries, INIT is excluded and the other two are rejected. -/
theorem notReadyIsRejected : Obligations.NotReadyIsRejected := by
  unfold Obligations.NotReadyIsRejected
  intro s i w hf he hne
  refine ⟨_, rfl, ?_⟩
  cases i with
  | init => exact absurd rfl hne
  | poll c wi r t h =>
    cases he
    rw [exec_poll_of_not_ready hf]
    rfl
  | setBase c =>
    cases he
    rw [exec_setBase_of_not_ready hf]
    rfl
  | decIdentity | decVersion | decRainfall | decRawcount | decWorktime | encBase | encWindow =>
    cases he

end Sys2Proof.Machine
end

section
/-! The engine's steps on an answer and on the timer's signal (41_protocol.md R104, R105, R112 to R115,
R119, R120), one equation for each outcome a rule names. -/

namespace Sys2Proof.Machine

/-! ### Which step a move takes -/

/-- A READ's answer is one a READ admits (R122). -/
@[simp] theorem asRead_toTRsp (a : ReadRsp) : a.toTRsp.asRead = some a := by cases a <;> rfl

/-- A WRITE's answer is one a WRITE admits (R122). -/
@[simp] theorem asWrite_toTRsp (a : WriteRsp) : a.toTRsp.asWrite = some a := by cases a <;> rfl

/-- An answer that fits a READ is DATA or ERR (R122). -/
theorem exists_readRsp_of_fits {r : TRsp} {q : XReq} (hk : q.kind = .read) (h : r.fits q = true) :
    ∃ a : ReadRsp, r = a.toTRsp := by
  simp only [TRsp.fits, hk, Option.isSome_iff_exists] at h
  obtain ⟨a, ha⟩ := h
  exact ⟨a, (asRead_eq_some ha).symm⟩

/-- An answer that fits a WRITE is OK or ERR (R122). -/
theorem exists_writeRsp_of_fits {r : TRsp} {q : XReq} (hk : q.kind = .write)
    (h : r.fits q = true) : ∃ a : WriteRsp, r = a.toTRsp := by
  simp only [TRsp.fits, hk, Option.isSome_iff_exists] at h
  obtain ⟨a, ha⟩ := h
  exact ⟨a, (asWrite_eq_some ha).symm⟩

/-- The answer to an outstanding READ is taken by the phase's step (R97). -/
theorem transportAnswer_of_read {s : State} {q : XReq} (hx : s.xreq = some q)
    (hk : q.kind = .read) (a : ReadRsp) : transportAnswer a.toTRsp s = readAnswered a s := by
  simp [transportAnswer, hx, hk]

/-- The answer to an outstanding WRITE is taken by the phase's step (R97). -/
theorem transportAnswer_of_write {s : State} {q : XReq} (hx : s.xreq = some q)
    (hk : q.kind = .write) (a : WriteRsp) : transportAnswer a.toTRsp s = writeAnswered a s := by
  simp [transportAnswer, hx, hk]

/-- The step on the answer to an outstanding READ. -/
theorem step_of_read {s : State} {q : XReq} {rest : List Move} (a : ReadRsp)
    (hs : s.sched = .transport a.toTRsp :: rest) (hx : s.xreq = some q) (hk : q.kind = .read) :
    step s = .next (readAnswered a (setSched rest s)) := by
  rw [step_transport hs, transportAnswer_of_read (s := setSched rest s) hx hk]

/-- The step on the answer to an outstanding WRITE. -/
theorem step_of_write {s : State} {q : XReq} {rest : List Move} (a : WriteRsp)
    (hs : s.sched = .transport a.toTRsp :: rest) (hx : s.xreq = some q) (hk : q.kind = .write) :
    step s = .next (writeAnswered a (setSched rest s)) := by
  rw [step_transport hs, transportAnswer_of_write (s := setSched rest s) hx hk]

section
variable {s : State}

theorem readAnswered_idRd (h : s.phase = .idRd) (a : ReadRsp) :
    readAnswered a s = idRdStep a s := by simp [readAnswered, h]

theorem readAnswered_verRd (h : s.phase = .verRd) (a : ReadRsp) :
    readAnswered a s = verRdStep a s := by simp [readAnswered, h]

theorem readAnswered_measRd (h : s.phase = .measRd) (a : ReadRsp) :
    readAnswered a s = measRdStep a s := by simp [readAnswered, h]

theorem readAnswered_winRd (h : s.phase = .winRd) (a : ReadRsp) :
    readAnswered a s = winRdStep a s := by simp [readAnswered, h]

theorem writeAnswered_winWr (h : s.phase = .winWr) (a : WriteRsp) :
    writeAnswered a s = winWrStep a s := by simp [writeAnswered, h]

theorem writeAnswered_baseWr (h : s.phase = .baseWr) (a : WriteRsp) :
    writeAnswered a s = baseWrStep a s := by simp [writeAnswered, h]

theorem timerSignal_winSettle (hs : s.settle = true) (h : s.phase = .winSettle) :
    timerSignal s = winSettleStep s := by simp [timerSignal, hs, h]

theorem timerSignal_baseSettle (hs : s.settle = true) (h : s.phase = .baseSettle) :
    timerSignal s = baseSettleStep s := by simp [timerSignal, hs, h]

end

/-! ### The steps of INIT -/

/-- ID_RD on bytes of a wrong length (R104). -/
theorem idRdStep_of_length {bytes : List Byte} (h : bytes.length ≠ 4) (s : State) :
    idRdStep (.data bytes) s = permanentFault .shortRead (takeTRsp (.data bytes) s) := by
  unfold idRdStep
  split
  next he => cases he
  next he =>
    cases he
    exact absurd rfl h
  next he => rfl

/-- IDCHECK refuses every other identity (R85). -/
theorem idCheck_of_mismatch {pid : BitVec 20} {vid : Half}
    (h : ¬ (vid = 0x3343 ∧ pid = 0x100C0)) : idCheck pid vid = false := by
  rw [Bool.eq_false_iff, Ne, idCheck_iff]
  exact h

/-- A mismatched identity ends the INIT (R104). -/
theorem idRdChecked_of_mismatch {pid : BitVec 20} {vid : Half} (h : idCheck pid vid = false)
    (s : State) : idRdChecked pid vid s = permanentFault .identityMismatch s := by
  simp [idRdChecked, h]

/-- A good identity goes on to the version read where that is configured (R104). -/
theorem idRdChecked_of_match {pid : BitVec 20} {vid : Half} {s : State}
    (h : idCheck pid vid = true) (hv : s.cfg.readVersionAtInit = true) :
    idRdChecked pid vid s = issue reqVersion (setPhase .verRd s) := by
  simp [idRdChecked, h, hv]

/-- A good identity ends the INIT where no version read is configured (R104). -/
theorem idRdChecked_of_match_no_version {pid : BitVec 20} {vid : Half} {s : State}
    (h : idCheck pid vid = true) (hv : s.cfg.readVersionAtInit = false) :
    idRdChecked pid vid s = finish .ready (setStatus .ok s) := by
  simp [idRdChecked, h, hv]

/-- The identity and STATUS as they stand in the response buffer (R104). -/
theorem setStatus_setIdentity (st : Status) (pid : BitVec 20) (vid : Half) (s : State) :
    setStatus st (setIdentity pid vid s) = setResp { s.resp with
      rw0 := setRw0Status (setRw0IdValid s.resp.rw0) st
      rw2 := pid.setWidth 32
      rw3 := vid.setWidth 32 } s := rfl

/-- The version and STATUS as they stand in the response buffer (R105). -/
theorem setStatus_setVersion (st : Status) (v : Half) (s : State) :
    setStatus st (setVersion v s) = setResp { s.resp with
      rw0 := setRw0Status (setRw0FwValid s.resp.rw0) st
      rw1 := v.setWidth 32 } s := rfl

/-- VER_RD on bytes of a wrong length (R105). -/
theorem verRdStep_of_length {bytes : List Byte} (h : bytes.length ≠ 2) (s : State) :
    verRdStep (.data bytes) s = finish .ready (setStatus .ok (takeTRsp (.data bytes) s)) := by
  unfold verRdStep
  split
  next he =>
    cases he
    exact absurd rfl h
  next he => cases he; rfl
  next he => cases he

/-- Settles O19: ID_RD by the answer, and on four bytes by IDCHECK and the configuration. -/
theorem identityReadStep : Obligations.IdentityReadStep := by
  unfold Obligations.IdentityReadStep
  intro s r rest hs hp hx
  have hstep : ∀ a : ReadRsp, r = a.toTRsp → step s = .next (idRdStep a (setSched rest s)) := by
    rintro a rfl
    rw [step_of_read a hs hx rfl, readAnswered_idRd (s := setSched rest s) hp]
  refine ⟨?err, ?short, ?four⟩
  case err =>
    rintro rfl
    refine ⟨_, rfl, ?_⟩
    rw [hstep .err rfl]
    rfl
  case short =>
    rintro bytes rfl hlen
    refine ⟨_, rfl, ?_⟩
    rw [hstep (.data bytes) rfl, idRdStep_of_length hlen]
    rfl
  case four =>
    rintro b0 b1 b2 b3 pid vid rfl rfl rfl
    rw [hstep (.data [b0, b1, b2, b3]) rfl, idRdStep]
    refine ⟨fun hne => ?_, fun heq hv => ?_, fun heq hv => ?_⟩
    · refine ⟨_, rfl, ?_⟩
      rw [idRdChecked_of_mismatch (idCheck_of_mismatch fun h => hne h.symm), permanentFault,
        setStatus_setIdentity]
      rfl
    · refine ⟨(setIdentity (productId b0 b1 b3) (vendorId b2 b3) s).resp, ?_, ?_⟩
      · simp [heq]
      · rw [idRdChecked_of_match (s := setIdentity _ _ (takeTRsp _ (setSched rest s)))
          ((idCheck_iff _ _).mpr heq.symm) hv]
        rfl
    · refine ⟨{ s.resp with
        rw0 := setRw0Status (setRw0IdValid s.resp.rw0) .ok
        rw2 := (productId b0 b1 b3).setWidth 32
        rw3 := (vendorId b2 b3).setWidth 32 }, ?_, ?_⟩
      · simp [heq]
      · rw [idRdChecked_of_match_no_version (s := setIdentity _ _ (takeTRsp _ (setSched rest s)))
          ((idCheck_iff _ _).mpr heq.symm) hv, setStatus_setIdentity]
        rfl

/-- Settles O20: VER_RD by the answer: two bytes, another length, or ERR. -/
theorem versionReadStep : Obligations.VersionReadStep := by
  unfold Obligations.VersionReadStep
  intro s r rest hs hp hx hr
  have hstep : ∀ a : ReadRsp, r = a.toTRsp → step s = .next (verRdStep a (setSched rest s)) := by
    rintro a rfl
    rw [step_of_read a hs hx rfl, readAnswered_verRd (s := setSched rest s) hp]
  cases r with
  | ok => exact absurd rfl hr
  | err =>
    refine ⟨{ s.resp with rw0 := setRw0Status s.resp.rw0 .ok }, nofun, fun _ => rfl, ?_⟩
    rw [hstep .err rfl]
    rfl
  | data bytes =>
    by_cases hlen : bytes.length = 2
    · obtain ⟨b0, b1, rfl⟩ := List.length_eq_two.mp hlen
      refine ⟨{ s.resp with
        rw0 := setRw0Status (setRw0FwValid s.resp.rw0) .ok
        rw1 := (le16 b0 b1).setWidth 32 }, ?_, ?_, ?_⟩
      · rintro _ _ ⟨⟩
        rfl
      · rintro (⟨⟨⟩⟩ | ⟨_, ⟨⟩, hne⟩)
        exact absurd hlen hne
      · rw [hstep (.data [b0, b1]) rfl, verRdStep, setStatus_setVersion]
        rfl
    · refine ⟨{ s.resp with rw0 := setRw0Status s.resp.rw0 .ok }, ?_, fun _ => rfl, ?_⟩
      · rintro _ _ ⟨⟩
        exact absurd rfl hlen
      · rw [hstep (.data bytes) rfl, verRdStep_of_length hlen]
        rfl

/-! ### The reads of a POLL -/

/-- Bytes of a wrong length decode to no count (R106, R112). -/
theorem decodeMeasurement_of_length {k : Kind} {bytes : List Byte} (h : bytes.length ≠ k.width) :
    decodeMeasurement k bytes = none := by
  unfold decodeMeasurement
  split
  case h_5 => rfl
  all_goals exact absurd rfl h

/-- Recording a read changes the response buffer alone (R112, R115). -/
theorem recordRead_eq_setResp (k : Kind) (a : ReadRsp) (s : State) :
    recordRead k a s = setResp (recordRead k a s).resp s := by
  obtain ⟨ρ, -, e⟩ := recordRead_eq k a s
  rw [e]
  rfl

/-- What recording a read makes of the response buffer (R112, R115). -/
theorem recordedAs_recordRead (k : Kind) (a : ReadRsp) (s : State) :
    recordedAs k k.width a.toTRsp s.resp (recordRead k a s).resp := by
  cases a with
  | err => exact ⟨fun _ => rfl, nofun, nofun, nofun⟩
  | data bytes =>
    refine ⟨nofun, ?short, ?four, ?two⟩
    case short =>
      rintro _ ⟨⟩ hlen
      rw [recordRead, decodeMeasurement_of_length hlen]
      rfl
    case four =>
      rintro b0 b1 b2 b3 hw ⟨⟩
      cases k with
      | time => cases hw
      | cum | win | raw => rfl
    case two =>
      rintro b0 b1 hw ⟨⟩
      cases k with
      | time => rfl
      | cum | win | raw => cases hw

/-- Settles O22: MEAS_RD records the read of MEAS, whose width is 2 for TIME and 4 otherwise. -/
theorem measurementReadStep : Obligations.MeasurementReadStep := by
  unfold Obligations.MeasurementReadStep
  intro s r rest q hs hp hm hx hk hfit
  obtain ⟨a, rfl⟩ := exists_readRsp_of_fits hk hfit
  have hwidth : (if s.meas = .time then 2 else 4) = s.meas.width := by
    cases hk : s.meas <;> rfl
  refine ⟨(recordRead s.meas a (takeTRsp a.toTRsp (setSched rest s))).resp, ?_, ?_⟩
  · rw [hwidth]
    exact recordedAs_recordRead s.meas a (takeTRsp a.toTRsp (setSched rest s))
  · rw [step_of_read a hs hx hk, readAnswered_measRd (s := setSched rest s) hp, measRdStep,
      recordRead_eq_setResp]
    rfl

/-- Settles O25: WIN_RD records the read of WIN, whose width is 4. -/
theorem windowReadStep : Obligations.WindowReadStep := by
  unfold Obligations.WindowReadStep
  intro s r rest q hs hp hx hk hfit
  obtain ⟨a, rfl⟩ := exists_readRsp_of_fits hk hfit
  refine ⟨(recordRead .win a (takeTRsp a.toTRsp (setSched rest s))).resp, ?_, ?_⟩
  · exact recordedAs_recordRead .win a (takeTRsp a.toTRsp (setSched rest s))
  · rw [step_of_read a hs hx hk, readAnswered_winRd (s := setSched rest s) hp, winRdStep,
      recordRead_eq_setResp]
    rfl

/-! ### The writes and their settles -/

/-- Settles O23: WIN_WR and BASE_WR by the phase, for either answer. -/
theorem writeAnswerSteps : Obligations.WriteAnswerSteps := by
  unfold Obligations.WriteAnswerSteps
  intro s r rest q hs hx hk hr
  obtain ⟨a, rfl⟩ : ∃ a : WriteRsp, r = a.toTRsp := by
    rcases hr with rfl | rfl
    · exact ⟨.ok, rfl⟩
    · exact ⟨.err, rfl⟩
  rw [step_of_write a hs hx hk]
  refine ⟨fun hp => ?_, fun hp => ?_⟩
  · rw [writeAnswered_winWr (s := setSched rest s) hp]
    cases a <;> rfl
  · rw [writeAnswered_baseWr (s := setSched rest s) hp]
    cases a <;> rfl

/-- WIN_SETTLE after a good write reads TIME_RAINFALL (R114). -/
theorem winSettleStep_of_ok {s : State} (h : s.wrOk = true) :
    winSettleStep s = issue (reqMeasurement .win) (setPhase .winRd (takeSettleDone s)) := by
  simp [winSettleStep, h]

/-- WIN_SETTLE after a failed write makes WIN unavailable (R114). -/
theorem winSettleStep_of_err {s : State} (h : s.wrOk = false) :
    winSettleStep s = setPhase .select (setMst .win .unavailTransport (takeSettleDone s)) := by
  simp [winSettleStep, h]

/-- BASE_SETTLE ends the command with the status of its write (R120). -/
theorem baseSettleStep_eq_finish (s : State) : baseSettleStep s = finish .ready
    (setStatus (if s.wrOk then .ok else .transportError) (takeSettleDone s)) := by
  cases h : s.wrOk <;> simp [baseSettleStep, h]

/-- Settles O24: WIN_SETTLE by WR_OK. -/
theorem windowSettleStep : Obligations.WindowSettleStep := by
  unfold Obligations.WindowSettleStep
  intro s rest hs hp hset
  rw [step_timer hs, timerSignal_winSettle (s := setSched rest s) hset hp]
  refine ⟨fun hw => ?_, fun hw => ?_⟩
  · rw [winSettleStep_of_ok (s := setSched rest s) hw]
    rfl
  · rw [winSettleStep_of_err (s := setSched rest s) hw]
    rfl

/-- Settles O26: BASE_SETTLE ends the command for either value of WR_OK. -/
theorem baseSettleStep_spec : Obligations.BaseSettleStep := by
  unfold Obligations.BaseSettleStep
  intro s rest hs hp hset
  refine ⟨_, rfl, ?_⟩
  rw [step_timer hs, timerSignal_baseSettle (s := setSched rest s) hset hp,
    baseSettleStep_eq_finish]
  rfl

/-! ### SELECT -/

/-- Clearing a kind clears its bit of PENDING and no other (R111). -/
theorem getLsbD_clearPending (p : BitVec 4) (k : Kind) (j : Nat) :
    (clearPending p k).getLsbD j = (p.getLsbD j && decide (j ≠ k.index)) := by
  by_cases hj : j < 4
  · cases k <;> interval_cases j <;> simp [clearPending, Kind.index]
  · rw [BitVec.getLsbD_of_ge _ j (by omega), BitVec.getLsbD_of_ge p j (by omega), Bool.false_and]

/-- Every kind of the list is the draw of some number, whatever the counter (R10, R111). -/
theorem exists_drawKind_eq {k k₀ : Kind} {ks : List Kind} (h : k ∈ k₀ :: ks) :
    ∃ i, ∀ n, (drawKind (some i) n k₀ ks).1 = k := by
  obtain ⟨i, hi, hk⟩ := List.getElem_of_mem h
  refine ⟨i, fun n => ?_⟩
  cases ks with
  | nil => simpa [drawKind, eq_comm] using h
  | cons k₁ ks =>
    have hmod : i % ((k₁ :: ks).length + 1) = i := Nat.mod_eq_of_lt hi
    rw [drawKind, hmod, List.getD_eq_getElem _ _ hi, hk]

/-- SELECT with nothing pending ends the POLL (R111). -/
theorem selectStep_of_pending_zero {s : State} (h : s.pending = 0) (pick : Option Nat) :
    selectStep pick s = finish .ready (setStatus .ok s) := by
  simp [selectStep, pendingKinds_eq_nil.mpr h]

/-- SELECT with kinds pending starts one of them (R111). -/
theorem selectStep_of_pending {s : State} (h : s.pending ≠ 0) (pick : Option Nat) :
    ∃ k n, isPending s.pending k = true ∧
      selectStep pick s = startMeasurement k (setDraws n s) :=
  (selectStep_cases pick s).resolve_left fun h0 => h (pendingKinds_eq_nil.mp h0.1)

/-- Some draw makes SELECT start a given pending kind (R111). -/
theorem exists_selectStep_eq {s : State} {k : Kind} (h : isPending s.pending k = true) :
    ∃ i n, selectStep (some i) s = startMeasurement k (setDraws n s) := by
  have hmem : k ∈ pendingKinds s.pending := mem_pendingKinds.mpr h
  unfold selectStep
  cases hks : pendingKinds s.pending with
  | nil => simp [hks] at hmem
  | cons k₀ ks =>
    obtain ⟨i, hi⟩ := exists_drawKind_eq (hks ▸ hmem)
    exact ⟨i, (drawKind (some i) s.draws k₀ ks).2, by simp only [hi]⟩

/-- Settles O21: SELECT by whether anything is pending, and the draw of a given kind. -/
theorem selectStep_spec : Obligations.SelectStep := by
  unfold Obligations.SelectStep
  refine ⟨?ends, ?starts, ?draws⟩
  case ends =>
    intro s rest hm hf hp h0
    obtain ⟨pick, hstep⟩ := step_of_engineMoves hm
    refine ⟨_, rfl, ?_⟩
    rw [hstep, engineStep_of_select (s := setSched rest s) hf hp,
      selectStep_of_pending_zero (s := setSched rest s) h0, h0]
    rfl
  case starts =>
    intro s rest hm hf hp h0
    obtain ⟨pick, hstep⟩ := step_of_engineMoves hm
    obtain ⟨k, n, hk, hsel⟩ := selectStep_of_pending (s := setSched rest s) h0 pick
    rw [engineStep_of_select (s := setSched rest s) hf hp, hsel, startMeasurement_eq] at hstep
    exact ⟨k, _, hk, hstep, getLsbD_clearPending s.pending k, rfl, rfl, rfl, rfl, rfl, rfl⟩
  case draws =>
    intro s k rest hf hp hk
    obtain ⟨i, n, hsel⟩ := exists_selectStep_eq (s := setSched rest s) hk
    refine ⟨i, startMeasurement k (setDraws n (setSched rest s)), ?_, ?_⟩
    · have hmove : step { s with sched := .engine (some i) :: rest }
          = engineStep (some i) (setSched rest s) := rfl
      rw [hmove, engineStep_of_select (s := setSched rest s) hf hp, hsel]
    · rw [startMeasurement_eq]
      rfl

end Sys2Proof.Machine
end

section
/-! What a busy engine keeps through every transition but the reset input: the word on the channel
(41_protocol.md R98) and, while a POLL is in progress, BUSY or READY (R109). -/

namespace Sys2Proof.Machine

/-- The offered word stays on the channel and no `Cmd` is emitted (R98). -/
def HoldsCmd (s s' : State) : Prop :=
  s'.cmd = s.cmd ∧ ∀ v, occurrences (.cmd v) s'.trace = occurrences (.cmd v) s.trace

/-- SELECT holds the offered word (R111). -/
theorem selectStep_holdsCmd (pick : Option Nat) (s : State) : HoldsCmd s (selectStep pick s) := by
  rcases selectStep_cases pick s with ⟨-, e⟩ | ⟨k, n, -, e⟩
  · rw [e]
    exact ⟨rfl, by simp [occurrences]⟩
  · rw [e, startMeasurement_eq]
    exact ⟨rfl, by simp [occurrences]⟩

/-- ID_RD holds the offered word (R104). -/
theorem idRdStep_holdsCmd (a : ReadRsp) (s : State) : HoldsCmd s (idRdStep a s) := by
  obtain ⟨ρ, -, ⟨-, -, e⟩ | ⟨-, e⟩ | ⟨-, -, e⟩⟩ := idRdStep_cases a s <;>
    rw [e] <;> exact ⟨rfl, by simp [occurrences]⟩

/-- WIN_SETTLE holds the offered word (R114). -/
theorem winSettleStep_holdsCmd (s : State) : HoldsCmd s (winSettleStep s) := by
  rcases winSettleStep_cases s with ⟨-, e⟩ | ⟨-, ρ, -, e⟩ <;>
    rw [e] <;> exact ⟨rfl, by simp [occurrences]⟩

/-- A busy engine holds the offered word through every transition but the reset input (R55, R98). -/
theorem Transition.holdsCmd {m : Option Move} {s s' : State} {w : Word} (hT : Transition m s s')
    (hf : s.fsm = .busy) (hw : s.cmd = some w) (hm : m ≠ some .reset) : HoldsCmd s s' := by
  cases hT with
  | stay | decoder => exact ⟨rfl, fun _ => rfl⟩
  | offer v hv hc => simp [hw] at hc
  | init v hv hc hd hs => exact absurd hf hs
  | reserved v e hv hc hs => exact absurd hf hs
  | poll v c wi r t h hv hc hd hs => simp [hf] at hs
  | setBase v c hv hc hd hs => simp [hf] at hs
  | pollNotReady v c wi r t h hv hc hd hs => simp [hf] at hs
  | setBaseNotReady v c hv hc hd hs => simp [hf] at hs
  | reset hr => exact absurd hr hm
  | select pick => exact selectStep_holdsCmd pick s
  | idRd a => exact idRdStep_holdsCmd a s
  | winSettle => exact winSettleStep_holdsCmd s
  | winWr | baseWr => exact ⟨rfl, by simp [occurrences, winWrStep, baseWrStep]⟩
  | verRd a =>
    obtain ⟨ρ, -, e⟩ := verRdStep_eq a s
    rw [e]
    exact ⟨rfl, by simp [occurrences]⟩
  | measRd a =>
    obtain ⟨ρ, -, e⟩ := measRdStep_eq a s
    rw [e]
    exact ⟨rfl, by simp [occurrences]⟩
  | winRd a =>
    obtain ⟨ρ, -, e⟩ := winRdStep_eq a s
    rw [e]
    exact ⟨rfl, by simp [occurrences]⟩
  | baseSettle =>
    rw [baseSettleStep_eq_finish]
    exact ⟨rfl, by simp [occurrences]⟩

/-- Settles O11: a busy engine's transition holds the word, and the commands change nothing in BUSY. -/
theorem offeredCommandIsHeld : Obligations.OfferedCommandIsHeld := by
  unfold Obligations.OfferedCommandIsHeld
  refine ⟨fun s s' w hf hw hm hs => ?_, fun s w i hf hd => exec_of_busy hf hd⟩
  obtain ⟨hcmd, hocc⟩ := (step_transition hs).holdsCmd hf hw hm
  exact ⟨hcmd.trans hw, hocc⟩

/-- While a POLL is in progress every transition but the reset input leaves the engine BUSY or READY
(R109): the step that ends in UNUSABLE, ID_RD, is a phase of INIT. -/
theorem Transition.poll_fsm {m : Option Move} {s s' : State} (hT : Transition m s s')
    (h : EngineInv s) (hf : s.fsm = .busy) (hc : s.curOp = 2) (hm : m ≠ some .reset) :
    s'.fsm = .busy ∨ s'.fsm = .ready := by
  cases hT with
  | stay | decoder | offer | pollNotReady | setBaseNotReady | reserved => exact .inl hf
  | init | poll | setBase => exact .inl rfl
  | winWr | baseWr => exact .inl hf
  | reset hr => exact absurd hr hm
  | idRd a q hr hp => simp [h.curOp_of_phase hp rfl] at hc
  | select pick =>
    rcases selectStep_cases pick s with ⟨-, e⟩ | ⟨k, n, -, e⟩
    · rw [e]
      exact .inr rfl
    · rw [e, startMeasurement_eq]
      exact .inl hf
  | winSettle =>
    rcases winSettleStep_cases s with ⟨-, e⟩ | ⟨-, ρ, -, e⟩ <;> rw [e] <;> exact .inl hf
  | verRd a =>
    obtain ⟨ρ, -, e⟩ := verRdStep_eq a s
    rw [e]
    exact .inr rfl
  | measRd a =>
    obtain ⟨ρ, -, e⟩ := measRdStep_eq a s
    rw [e]
    exact .inl hf
  | winRd a =>
    obtain ⟨ρ, -, e⟩ := winRdStep_eq a s
    rw [e]
    exact .inl hf
  | baseSettle =>
    rw [baseSettleStep_eq_finish]
    exact .inr rfl

/-- Settles O42: the step is a transition of a POLL in progress. -/
theorem pollNeverMakesUnusable : Obligations.PollNeverMakesUnusable := by
  unfold Obligations.PollNeverMakesUnusable
  intro s s' h hf hc hs hm
  exact (step_transition hs).poll_fsm (h.setSched s.sched.tail) hf hc hm

end Sys2Proof.Machine
end

section
/-! The closed loop (41_protocol.md R122, R123; 70_reset_and_hazards.md R153): the step of each enabled
move, what a run reaches within a number of steps, and INIT and SET_BASE as wholes. -/

namespace Sys2Proof.Machine

section
variable {env : Oracle} {pick : BitVec 4 → Nat} {s : State}

/-! ### The step of the enabled move -/

/-- The closed loop's step is the machine's (R10). -/
theorem closedStep_of_step {s' : State}
    (h : step (setSched [closedMove env pick s] s) = .next s') : closedStep env pick s = s' := by
  simp [closedStep, h]

/-- An outstanding READ is answered (R122). -/
theorem closedStep_of_read {q : XReq} {a : ReadRsp} (hx : s.xreq = some q) (hk : q.kind = .read)
    (ha : env q = a.toTRsp) : closedStep env pick s = readAnswered a (setSched [] s) :=
  closedStep_of_step (step_of_read a (by simp [closedMove, hx, ha]) hx hk)

/-- An outstanding WRITE is answered (R122). -/
theorem closedStep_of_write {q : XReq} {a : WriteRsp} (hx : s.xreq = some q) (hk : q.kind = .write)
    (ha : env q = a.toTRsp) : closedStep env pick s = writeAnswered a (setSched [] s) :=
  closedStep_of_step (step_of_write a (by simp [closedMove, hx, ha]) hx hk)

/-- An armed settle is signalled (R122). -/
theorem closedStep_of_settle (hx : s.xreq = none) (hs : s.settle = true) :
    closedStep env pick s = timerSignal (setSched [] s) :=
  closedStep_of_step (step_timer (by simp [closedMove, hx, hs]))

/-- With nothing in flight the engine moves (R97). -/
theorem closedStep_of_engine {s' : State} (hx : s.xreq = none) (hs : s.settle = false)
    (h : engineStep (some (pick s.pending)) (setSched [] s) = .next s') :
    closedStep env pick s = s' := by
  apply closedStep_of_step
  have hmove : closedMove env pick s = .engine (some (pick s.pending)) := by
    simp [closedMove, hx, hs]
  rw [hmove]
  exact h

/-- In phase SELECT the engine takes the SELECT step (R111). -/
theorem closedStep_of_select (hf : s.fsm = .busy) (hp : s.phase = .select) (hx : s.xreq = none)
    (hs : s.settle = false) :
    closedStep env pick s = selectStep (some (pick s.pending)) (setSched [] s) :=
  closedStep_of_engine hx hs (engineStep_of_select (s := setSched [] s) hf hp _)

/-- A stable engine runs the offered command (R98). -/
theorem closedStep_of_command {s' : State} {w : Word} {i : Instr} (hinv : SequencerInv s)
    (hf : s.fsm ≠ .busy) (hc : s.cmd = some w) (hd : decode (.cmd w) = .ok i)
    (h : exec i (setSched [] s) = .next s') : closedStep env pick s = s' := by
  have hp : s.phase = .none := hinv.engine.phase_of_stable hf
  refine closedStep_of_engine (hinv.engine.xreq_of_phase hp rfl) (hinv.engine.settle_of_phase hp) ?_
  rw [engineStep_of_stable (s := setSched [] s) hf, fetchCmd_of_decode (s := setSched [] s) hc hd, h]

/-! ### What a run reaches -/

/-- Some state of the closed loop's next `n` steps, or the state itself, meets `P`. -/
def Reaches (env : Oracle) (pick : BitVec 4 → Nat) (n : Nat) (P : State → Prop) (s : State) : Prop :=
  ∃ m, m ≤ n ∧ P (closedRun env pick m s)

/-- The state itself is reached. -/
theorem Reaches.now {n : Nat} {P : State → Prop} (h : P s) : Reaches env pick n P s :=
  ⟨0, Nat.zero_le n, h⟩

/-- What the next state reaches is reached one step later. -/
theorem Reaches.step {n : Nat} {P : State → Prop} (h : Reaches env pick n P (closedStep env pick s)) :
    Reaches env pick (n + 1) P s := by
  obtain ⟨m, hm, hP⟩ := h
  exact ⟨m + 1, Nat.succ_le_succ hm, hP⟩

/-- A larger bound is kept too. -/
theorem Reaches.mono {n n' : Nat} {P : State → Prop} (h : Reaches env pick n P s) (hn : n ≤ n') :
    Reaches env pick n' P s := by
  obtain ⟨m, hm, hP⟩ := h
  exact ⟨m, hm.trans hn, hP⟩

end

/-- The command is answered with `ρ`: the channel is empty, FSM_STATE is `f`, HOSTERR is `e`. -/
structure Answered (f : FsmState) (ρ : Resp) (e : Bool) (s : State) : Prop where
  cmd : s.cmd = none
  fsm : s.fsm = f
  resp : s.trace.head? = some (.resp ρ)
  hostErr : s.hostErr = e

/-- `finish` answers with the response buffer (R101). -/
theorem Answered.finish {s : State} {f : FsmState} {ρ : Resp} {e : Bool} (hc : s.cmd = none)
    (hρ : s.resp = ρ) (he : s.hostErr = e) : Answered f ρ e (finish f s) :=
  ⟨hc, rfl, by simp [hρ], he⟩

/-! ### SET_BASE -/

/-- The response of a SET_BASE by the answer to its write (R120). -/
theorem setBaseResponse_of_answer {env : Oracle} {a : WriteRsp}
    (ha : env ⟨.write, 0x28, 2⟩ = a.toTRsp) : setBaseResponse env = { Resp.zero with
      rw0 := setRw0Status (rw0Accepted 3) (if decide (a = .ok) then .ok else .transportError) } := by
  rw [setBaseResponse, ha]
  cases a <;> rfl

/-- SET_BASE is accepted, its write answered, and its settle signalled (R118 to R120). -/
theorem setBase_reaches_answered {env : Oracle} (henv : env.keepsContract) (pick : BitVec 4 → Nat)
    {s : State} {c : Half} (hinv : SequencerInv s) (hf : s.fsm = .ready)
    (hc : s.cmd = some (setBaseWord c)) :
    Reaches env pick 3 (Answered .ready (setBaseResponse env) s.hostErr) s := by
  have haccept : closedStep env pick s = acceptSetBase c (setSched [] s) :=
    closedStep_of_command hinv (by simp [hf]) hc (decodeEncodeRoundTrip (.setBase c))
      (exec_setBase_of_ready (s := setSched [] s) hf c)
  obtain ⟨a, ha⟩ : ∃ a : WriteRsp, env ⟨.write, 0x28, 2⟩ = a.toTRsp :=
    exists_writeRsp_of_fits rfl (henv _)
  apply Reaches.step
  rw [haccept]
  apply Reaches.step
  rw [closedStep_of_write rfl rfl ha, writeAnswered_baseWr rfl]
  apply Reaches.step
  rw [closedStep_of_settle rfl rfl, timerSignal_baseSettle rfl rfl, baseSettleStep_eq_finish]
  rw [setBaseResponse_of_answer ha]
  exact .now (.finish rfl rfl rfl)

/-- Settles O54: the three steps of SET_BASE in the closed loop. -/
theorem setBaseRefinesItsResponse : Obligations.SetBaseRefinesItsResponse := by
  unfold Obligations.SetBaseRefinesItsResponse
  intro env pick s c henv hinv hf hc
  obtain ⟨n, hn, h⟩ := setBase_reaches_answered henv pick hinv hf hc
  exact ⟨n, hn, h.cmd, h.fsm, h.resp, h.hostErr⟩

/-! ### INIT -/

/-- VER_RD reports the version the answer holds, if any, and ends the INIT in READY (R105). -/
theorem verRdStep_eq_finish (a : ReadRsp) (s : State) :
    verRdStep a s = finish .ready (setStatus .ok
      (match versionResult a.toTRsp with
        | some v => setVersion v (takeTRsp a.toTRsp s)
        | none => takeTRsp a.toTRsp s)) := by
  cases a with
  | err => rfl
  | data bytes =>
    by_cases hlen : bytes.length = 2
    · obtain ⟨b0, b1, rfl⟩ := List.length_eq_two.mp hlen
      rfl
    · rw [verRdStep_of_length hlen]
      have hnone : versionResult (.data bytes) = none := by
        unfold versionResult
        split
        next he => cases he; exact absurd rfl hlen
        next => rfl
      simp [ReadRsp.toTRsp, hnone]

/-- The headers of INIT's responses as the engine writes them are the numbers of R68 and R69. -/
theorem rw0_of_init :
    setRw0Status (rw0Accepted 1) .transportError = 0x12 ∧
      setRw0Status (rw0Accepted 1) .shortRead = 0x13 ∧
      setRw0Status (setRw0IdValid (rw0Accepted 1)) .identityMismatch = 0x211 ∧
      setRw0Status (setRw0IdValid (rw0Accepted 1)) .ok = 0x210 ∧
      setRw0Status (setRw0FwValid (setRw0IdValid (rw0Accepted 1))) .ok = 0x310 := by
  decide

/-- The response buffer of an INIT that has read `pid` and `vid`, with header `rw0` and version word
`rw1` (R104, R105). -/
def identityResp (rw0 rw1 : Word) (pid : BitVec 20) (vid : Half) : Resp :=
  { rw0 := rw0, rw1 := rw1, rw2 := pid.setWidth 32, rw3 := vid.setWidth 32, rw4 := 0 }

/-- The response of an INIT that ends in READY, with the version it has read, if any (R104, R105). -/
def readyResp (pid : BitVec 20) (vid : Half) : Option Half → Resp
  | some v => identityResp (setRw0Status (setRw0FwValid (setRw0IdValid (rw0Accepted 1))) .ok)
      (v.setWidth 32) pid vid
  | none => identityResp (setRw0Status (setRw0IdValid (rw0Accepted 1)) .ok) 0 pid vid

section
variable {env : Oracle} {b0 b1 b2 b3 : Byte}

/-- The response of an INIT whose identity read fails (R104). -/
theorem initResponse_of_err (h : env ⟨.read, 0x00, 4⟩ = .err) (rv : Bool) :
    initResponse env rv =
      ({ Resp.zero with rw0 := setRw0Status (rw0Accepted 1) .transportError }, .unusable) := by
  obtain ⟨hrw0, -⟩ := rw0_of_init
  rw [initResponse, h, hrw0]
  rfl

/-- The response of an INIT whose identity read has a wrong length (R104). -/
theorem initResponse_of_length {bytes : List Byte} (h : env ⟨.read, 0x00, 4⟩ = .data bytes)
    (hlen : bytes.length ≠ 4) (rv : Bool) :
    initResponse env rv =
      ({ Resp.zero with rw0 := setRw0Status (rw0Accepted 1) .shortRead }, .unusable) := by
  obtain ⟨-, hrw0, -⟩ := rw0_of_init
  rw [initResponse, h, hrw0]
  split
  next he =>
    cases he
    exact absurd rfl hlen
  next => rfl
  next hne => exact absurd rfl (hne bytes)

/-- The response of an INIT that reads another identity (R104). -/
theorem initResponse_of_mismatch (h : env ⟨.read, 0x00, 4⟩ = .data [b0, b1, b2, b3])
    (hid : ¬ (vendorId b2 b3 = 0x3343 ∧ productId b0 b1 b3 = 0x100C0)) (rv : Bool) :
    initResponse env rv =
      (identityResp (setRw0Status (setRw0IdValid (rw0Accepted 1)) .identityMismatch) 0
        (productId b0 b1 b3) (vendorId b2 b3), .unusable) := by
  obtain ⟨-, -, hrw0, -⟩ := rw0_of_init
  rw [initResponse, h, hrw0]
  exact if_neg hid

/-- The response of an INIT that reads the expected identity (R104, R105). -/
theorem initResponse_of_match (h : env ⟨.read, 0x00, 4⟩ = .data [b0, b1, b2, b3])
    (hid : vendorId b2 b3 = 0x3343 ∧ productId b0 b1 b3 = 0x100C0) (rv : Bool) :
    initResponse env rv = (readyResp (productId b0 b1 b3) (vendorId b2 b3)
      (if rv then versionResult (env ⟨.read, 0x0A, 2⟩) else none), .ready) := by
  obtain ⟨-, -, -, hrw0, hrw0Version⟩ := rw0_of_init
  rw [initResponse, h]
  refine (if_pos hid).trans ?_
  rw [hid.1, hid.2]
  cases (if rv then versionResult (env ⟨.read, 0x0A, 2⟩) else none) with
  | none =>
    rw [readyResp, hrw0]
    rfl
  | some v =>
    rw [readyResp, hrw0Version]
    rfl

/-- After the expected identity INIT ends at once, or with the answer to the version read (R104,
R105). -/
theorem idRdChecked_reaches_answered (henv : env.keepsContract) (pick : BitVec 4 → Nat) (s : State)
    (h : env ⟨.read, 0x00, 4⟩ = .data [b0, b1, b2, b3])
    (hid : vendorId b2 b3 = 0x3343 ∧ productId b0 b1 b3 = 0x100C0) :
    Reaches env pick 1 (Answered (initResponse env s.cfg.readVersionAtInit).2
      (initResponse env s.cfg.readVersionAtInit).1 s.hostErr)
      (idRdChecked (productId b0 b1 b3) (vendorId b2 b3)
        (setIdentity (productId b0 b1 b3) (vendorId b2 b3)
          (takeTRsp (.data [b0, b1, b2, b3]) (setSched [] (acceptInit s))))) := by
  have hcheck : idCheck (productId b0 b1 b3) (vendorId b2 b3) = true := (idCheck_iff _ _).mpr hid
  rw [initResponse_of_match h hid]
  generalize hu : setIdentity (productId b0 b1 b3) (vendorId b2 b3)
    (takeTRsp (.data [b0, b1, b2, b3]) (setSched [] (acceptInit s))) = u
  have hcfg : u.cfg = s.cfg := by rw [← hu]; rfl
  cases hv : s.cfg.readVersionAtInit with
  | true =>
    obtain ⟨v, hver⟩ : ∃ v : ReadRsp, env ⟨.read, 0x0A, 2⟩ = v.toTRsp :=
      exists_readRsp_of_fits rfl (henv _)
    rw [idRdChecked_of_match hcheck (hcfg ▸ hv)]
    apply Reaches.step
    rw [closedStep_of_read rfl rfl hver, readAnswered_verRd rfl, verRdStep_eq_finish, hver]
    subst hu
    cases versionResult v.toTRsp <;> exact .now (.finish rfl rfl rfl)
  | false =>
    rw [idRdChecked_of_match_no_version hcheck (hcfg ▸ hv)]
    subst hu
    exact .now (.finish rfl rfl rfl)

/-- The identity read's answer ends the INIT, or is the expected identity (R104). -/
theorem idRdStep_reaches_answered (henv : env.keepsContract) (pick : BitVec 4 → Nat) (s : State)
    {a : ReadRsp} (ha : env ⟨.read, 0x00, 4⟩ = a.toTRsp) :
    Reaches env pick 1 (Answered (initResponse env s.cfg.readVersionAtInit).2
      (initResponse env s.cfg.readVersionAtInit).1 s.hostErr)
      (idRdStep a (setSched [] (acceptInit s))) := by
  cases a with
  | err =>
    rw [initResponse_of_err ha]
    exact .now (.finish rfl rfl rfl)
  | data bytes =>
    by_cases hlen : bytes.length = 4
    · obtain ⟨b0, b1, b2, b3, rfl⟩ : ∃ b0 b1 b2 b3, bytes = [b0, b1, b2, b3] := by
        match bytes, hlen with
        | [b0, b1, b2, b3], _ => exact ⟨b0, b1, b2, b3, rfl⟩
      by_cases hid : vendorId b2 b3 = 0x3343 ∧ productId b0 b1 b3 = 0x100C0
      · exact idRdChecked_reaches_answered henv pick s ha hid
      · rw [initResponse_of_mismatch ha hid, idRdStep,
          idRdChecked_of_mismatch (idCheck_of_mismatch hid)]
        exact .now (.finish rfl rfl rfl)
    · rw [initResponse_of_length ha hlen, idRdStep_of_length hlen]
      exact .now (.finish rfl rfl rfl)

end

/-- INIT is accepted and its identity read answered (R103, R104). -/
theorem init_reaches_answered {env : Oracle} (henv : env.keepsContract) (pick : BitVec 4 → Nat)
    {s : State} (hinv : SequencerInv s) (hf : s.fsm ≠ .busy) (hc : s.cmd = some 0x00000001) :
    Reaches env pick 3 (Answered (initResponse env s.cfg.readVersionAtInit).2
      (initResponse env s.cfg.readVersionAtInit).1 s.hostErr) s := by
  have haccept : closedStep env pick s = acceptInit (setSched [] s) :=
    closedStep_of_command hinv hf hc rfl (exec_init_of_stable (s := setSched [] s) hf)
  obtain ⟨a, ha⟩ : ∃ a : ReadRsp, env ⟨.read, 0x00, 4⟩ = a.toTRsp :=
    exists_readRsp_of_fits rfl (henv _)
  apply Reaches.step
  rw [haccept]
  apply Reaches.step
  rw [closedStep_of_read rfl rfl ha, readAnswered_idRd rfl]
  exact idRdStep_reaches_answered henv pick (setSched [] s) ha

/-- Settles O52: the two or three steps of INIT in the closed loop. -/
theorem initRefinesItsResponse : Obligations.InitRefinesItsResponse := by
  unfold Obligations.InitRefinesItsResponse
  intro env pick s henv hinv hf hc
  obtain ⟨n, hn, h⟩ := init_reaches_answered henv pick hinv hf hc
  exact ⟨n, hn, h.cmd, h.fsm, h.resp, h.hostErr⟩

end Sys2Proof.Machine
end

section
/-! The response of a POLL as a record of one result for each kind (30_encoding.md R68, R70), and what
each write of the engine makes of it (41_protocol.md R112, R115). -/

namespace Sys2Proof.Machine

/-- A POLL's response buffer with STATUS = OK: an MST and a data word for each kind (R68). -/
def pollRecord (f : Kind → BitVec 2 × Word) : Resp :=
  { rw0 := 0x20#32 ||| (f .cum).1.setWidth 32 <<< 10 ||| (f .win).1.setWidth 32 <<< 12
      ||| (f .raw).1.setWidth 32 <<< 14 ||| (f .time).1.setWidth 32 <<< 16
    rw1 := (f .cum).2, rw2 := (f .win).2, rw3 := (f .raw).2, rw4 := (f .time).2 }

/-- MST(k) of the record is the code of `k`'s result. -/
@[simp] theorem rw0Mst_pollRecord (f : Kind → BitVec 2 × Word) (k : Kind) :
    rw0Mst (pollRecord f).rw0 k = (f k).1 := by
  apply BitVec.eq_of_getLsbD_eq
  intro i hi
  cases k <;> interval_cases i <;> simp [rw0Mst, pollRecord, Kind.index, BitVec.getLsbD_of_ge]

/-- DATA(k) of the record is the data word of `k`'s result. -/
@[simp] theorem respData_pollRecord (f : Kind → BitVec 2 × Word) (k : Kind) :
    respData (pollRecord f) k = (f k).2 := by
  cases k <;> rfl

/-- Outside the MST fields the record's header holds OP_ECHO = 2 alone. -/
theorem getLsbD_pollRecord_of_outside (f : Kind → BitVec 2 × Word) {j : Nat} (hlt : j < 32)
    (hj : j < 10 ∨ 18 ≤ j) : (pollRecord f).rw0.getLsbD j = (0x20#32).getLsbD j := by
  rcases hj with hj | hj <;> interval_cases j <;> simp [pollRecord, BitVec.getLsbD_of_ge]

/-- Every bit between the flags and the reserved bits belongs to a kind's MST (R68). -/
theorem exists_kind_of_mst_bit {j : Nat} (hlo : 10 ≤ j) (hhi : j < 18) :
    ∃ k : Kind, 10 + 2 * k.index ≤ j ∧ j < 10 + 2 * k.index + 2 := by
  rcases Nat.lt_or_ge j 12 with h | h12
  · exact ⟨.cum, hlo, h⟩
  rcases Nat.lt_or_ge j 14 with h | h14
  · exact ⟨.win, h12, h⟩
  rcases Nat.lt_or_ge j 16 with h | h16
  · exact ⟨.raw, h14, h⟩
  · exact ⟨.time, h16, hhi⟩

/-- Two headers agree when their MST fields and the bits outside them do. -/
theorem rw0_ext {v w : Word} (hmst : ∀ k, rw0Mst v k = rw0Mst w k)
    (hout : ∀ j, j < 32 → j < 10 ∨ 18 ≤ j → v.getLsbD j = w.getLsbD j) : v = w := by
  apply BitVec.eq_of_getLsbD_eq
  intro j hj
  by_cases h : j < 10 ∨ 18 ≤ j
  · exact hout j hj h
  · obtain ⟨k, hlo, hhi⟩ := exists_kind_of_mst_bit (j := j) (by omega) (by omega)
    rw [getLsbD_of_extractLsb'_eq (hmst k) hlo hhi]
    exact (getLsbD_of_extractLsb'_eq rfl hlo hhi).symm

/-- Writing an MST makes it the code of that kind's result. -/
theorem setRw0Mst_pollRecord (f : Kind → BitVec 2 × Word) (k : Kind) (m : Mst) (v : Word) :
    setRw0Mst (pollRecord f).rw0 k m = (pollRecord (Function.update f k (m.bits, v))).rw0 := by
  apply rw0_ext
  · intro j
    by_cases hj : j = k
    · subst hj
      simp
    · rw [rw0Mst_setRw0Mst_of_ne _ _ _ (Ne.symm hj)]
      simp [Function.update_of_ne hj]
  · intro j hlt hj
    have hk : k.index < 4 := k.index_lt
    rw [getLsbD_setRw0Mst_of_outside _ _ _ (by omega), getLsbD_pollRecord_of_outside f hlt hj,
      getLsbD_pollRecord_of_outside _ hlt hj]

/-- STATUS = OK is what the record's header holds. -/
theorem setRw0Status_pollRecord (f : Kind → BitVec 2 × Word) :
    setRw0Status (pollRecord f).rw0 .ok = (pollRecord f).rw0 := by
  apply rw0_ext
  · exact fun k => rw0Mst_setRw0Status _ _ k
  · intro j hlt hj
    by_cases h4 : 4 ≤ j
    · exact getLsbD_setRw0Status_of_le _ _ h4
    · rw [getLsbD_pollRecord_of_outside f hlt hj, setRw0Status,
        getLsbD_insertField _ _ _ (by decide), if_pos (by omega)]
      interval_cases j <;> rfl

/-- A kind's MST and data word written into the record. -/
theorem setRespData_pollRecord (f : Kind → BitVec 2 × Word) (k : Kind) (m : Mst) (v : Word) :
    setRespData { pollRecord f with rw0 := setRw0Mst (pollRecord f).rw0 k m } k v =
      pollRecord (Function.update f k (m.bits, v)) := by
  rw [setRw0Mst_pollRecord f k m v]
  cases k <;> rfl

/-- A kind's MST written into the record where its data word is still 0. -/
theorem mst_pollRecord {f : Kind → BitVec 2 × Word} {k : Kind} (hf : (f k).2 = 0) (m : Mst) :
    { pollRecord f with rw0 := setRw0Mst (pollRecord f).rw0 k m } =
      pollRecord (Function.update f k (m.bits, 0)) := by
  rw [setRw0Mst_pollRecord f k m 0, ← hf]
  cases k <;> rfl

/-- Recording a read writes the kind's result into the record (R112, R115). -/
theorem recordRead_pollRecord {f : Kind → BitVec 2 × Word} {k : Kind} {s : State}
    (hs : s.resp = pollRecord f) (hf : (f k).2 = 0) (a : ReadRsp) :
    (recordRead k a s).resp = pollRecord (Function.update f k (readResult k a.toTRsp)) := by
  cases a with
  | err =>
    rw [recordRead, setMst_resp, hs, mst_pollRecord hf]
    rfl
  | data bytes =>
    cases hd : decodeMeasurement k bytes with
    | some v =>
      simp only [recordRead, readResult, ReadRsp.toTRsp, hd, setData_resp, setMst_resp, hs]
      exact setRespData_pollRecord f k .valid v
    | none =>
      simp only [recordRead, readResult, ReadRsp.toTRsp, hd, setMst_resp, hs]
      exact mst_pollRecord hf .unavailShort

/-- The buffer of an accepted POLL holds no result yet (R110). -/
theorem pollRecord_zero :
    ({ Resp.zero with rw0 := rw0Accepted 2 } : Resp) = pollRecord fun _ => (0, 0) := by
  decide

/-- The response of a POLL as a record (R116). -/
theorem pollResponse_eq_pollRecord (env : Oracle) (c w r t : Bool) :
    pollResponse env c w r t =
      pollRecord fun k => requestedResult env (isPending (requestBits c w r t) k) k := by
  simp [pollResponse, pollRecord]

end Sys2Proof.Machine
end

section
/-! POLL as a whole in the closed loop (41_protocol.md R109 to R116): each pass from SELECT back to
SELECT adds the drawn kind's result to the record, in whatever order the kinds are drawn. -/

namespace Sys2Proof.Machine

/-! ### A POLL in progress -/

/-- A POLL is in progress: `p` is what PENDING holds, `f` what the response buffer records. -/
structure Polling (e : Bool) (p : BitVec 4) (f : Kind → BitVec 2 × Word) (s : State) : Prop where
  fsm : s.fsm = .busy
  cmd : s.cmd = none
  hostErr : s.hostErr = e
  pending : s.pending = p
  resp : s.resp = pollRecord f

/-- A POLL is in phase SELECT. -/
structure Selecting (e : Bool) (p : BitVec 4) (f : Kind → BitVec 2 × Word) (s : State) : Prop
    extends Polling e p f s where
  phase : s.phase = .select
  xreq : s.xreq = none
  settle : s.settle = false

/-- The record of a POLL once every kind pending in `p` has its result. -/
def completed (env : Oracle) (p : BitVec 4) (f : Kind → BitVec 2 × Word) (k : Kind) :
    BitVec 2 × Word :=
  if isPending p k then kindResult env k else f k

/-- Recording a pending kind's result, or leaving it to the completion, gives the same record. -/
theorem completed_clearPending (env : Oracle) {p : BitVec 4} {k : Kind} (hk : isPending p k = true)
    (f : Kind → BitVec 2 × Word) :
    completed env (clearPending p k) (Function.update f k (kindResult env k))
      = completed env p f := by
  funext j
  by_cases hj : j = k
  · subst hj
    simp [completed, isPending_clearPending, hk]
  · simp [completed, isPending_clearPending, hj]

/-- The steps of a kind's measurement, from SELECT back to SELECT (R153). -/
def kindCost (k : Kind) : Nat := if k = .win then 4 else 2

theorem pendingCost_clearPending {p : BitVec 4} {k : Kind} (hk : isPending p k = true) :
    pendingCost (clearPending p k) + kindCost k = pendingCost p := by
  revert hk
  cases k <;> revert p <;> decide

theorem pendingCost_le (p : BitVec 4) : pendingCost p ≤ 10 := by
  revert p
  decide

section
variable {env : Oracle} {pick : BitVec 4 → Nat} {e : Bool} {p : BitVec 4}
  {f : Kind → BitVec 2 × Word} {s : State}

/-- Back in SELECT after a read (R112, R115). -/
theorem Polling.selecting_recordRead {k : Kind} (h : Polling e p f s) (hx : s.xreq = none)
    (hs : s.settle = false) (hf : (f k).2 = 0) (a : ReadRsp) :
    Selecting e p (Function.update f k (readResult k a.toTRsp))
      (setPhase .select (recordRead k a s)) := by
  have hresp := recordRead_pollRecord h.resp hf a
  rw [recordRead_eq_setResp]
  exact ⟨⟨h.fsm, h.cmd, h.hostErr, h.pending, hresp⟩, rfl, hx, hs⟩

/-! ### The measurements -/

/-- CUM, RAW and TIME start with their read (R111). -/
theorem startMeasurement_of_ne_win {k : Kind} (hk : k ≠ .win) (s : State) :
    startMeasurement k s = issue (reqMeasurement k)
      (setPhase .measRd (setMeas k (setPending (clearPending s.pending k) s))) := by
  cases k with
  | win => exact absurd rfl hk
  | cum | raw | time => rfl

/-- The result of CUM, RAW and TIME is that of their read (R116). -/
theorem kindResult_of_ne_win {k : Kind} (hk : k ≠ .win) (env : Oracle) :
    kindResult env k = readResult k (env (reqMeasurement k).toXReq) := by
  cases k with
  | win => exact absurd rfl hk
  | cum | raw | time => rfl

/-- MEAS_RD and WIN_RD take the read's answer and go back to SELECT with its result (R112, R115). -/
theorem Polling.reaches_of_read (henv : env.keepsContract) (h : Polling e p f s) {k : Kind}
    {q : XReq} (hx : s.xreq = some q) (hq : q.kind = .read) (hs : s.settle = false)
    (hphase : s.phase = .measRd ∧ s.meas = k ∨ s.phase = .winRd ∧ k = .win) (hf : (f k).2 = 0)
    {P : State → Prop} {n : Nat}
    (hP : ∀ s', Selecting e p (Function.update f k (readResult k (env q))) s' →
      Reaches env pick n P s') : Reaches env pick (n + 1) P s := by
  obtain ⟨a, ha⟩ : ∃ a : ReadRsp, env q = a.toTRsp := exists_readRsp_of_fits hq (henv q)
  have hread : readAnswered a (setSched [] s)
      = setPhase .select (recordRead k a (takeTRsp a.toTRsp (setSched [] s))) := by
    rcases hphase with ⟨hp, rfl⟩ | ⟨hp, rfl⟩
    · exact readAnswered_measRd (s := setSched [] s) hp a
    · exact readAnswered_winRd (s := setSched [] s) hp a
  have ht : Polling e p f (takeTRsp a.toTRsp (setSched [] s)) := { h with }
  apply Reaches.step
  rw [closedStep_of_read hx hq ha, hread]
  rw [ha] at hP
  exact hP _ (ht.selecting_recordRead rfl hs hf a)

/-- WIN_SETTLE goes on to the read after a good write, and after a failed one back to SELECT with WIN
unavailable (R114). -/
theorem Polling.reaches_of_winSettle (henv : env.keepsContract) (h : Polling e p f s)
    (hp : s.phase = .winSettle) (hx : s.xreq = none) (hs : s.settle = true)
    (hw : s.wrOk = decide (env ⟨.write, 0x26, 1⟩ = .ok)) (hf : (f .win).2 = 0)
    {P : State → Prop} {n : Nat}
    (hP : ∀ s', Selecting e p (Function.update f .win (kindResult env .win)) s' →
      Reaches env pick n P s') : Reaches env pick (n + 2) P s := by
  apply Reaches.step
  rw [closedStep_of_settle hx hs, timerSignal_winSettle (s := setSched [] s) hs hp]
  rw [kindResult] at hP
  by_cases hok : env ⟨.write, 0x26, 1⟩ = .ok
  · rw [if_pos hok] at hP
    rw [winSettleStep_of_ok (s := setSched [] s) (hw.trans (decide_eq_true hok))]
    have ht : Polling e p f (issue (reqMeasurement .win)
        (setPhase .winRd (takeSettleDone (setSched [] s)))) := { h with }
    exact ht.reaches_of_read henv rfl rfl rfl (.inr ⟨rfl, rfl⟩) hf hP
  · rw [if_neg hok] at hP
    rw [winSettleStep_of_err (s := setSched [] s) (hw.trans (decide_eq_false hok))]
    have ht : Polling e p f (takeSettleDone (setSched [] s)) := { h with }
    exact (hP _ (ht.selecting_recordRead hx rfl hf .err)).mono (Nat.le_succ n)

/-- The measurement of CUM, RAW and TIME is its read (R112). -/
theorem Selecting.measures_of_ne_win (henv : env.keepsContract) (h : Selecting e p f s) {k : Kind}
    (hk : k ≠ .win) (hf : (f k).2 = 0) {P : State → Prop} {n : Nat}
    (hP : ∀ s', Selecting e (clearPending p k) (Function.update f k (kindResult env k)) s' →
      Reaches env pick n P s') :
    Reaches env pick (n + 1) P (startMeasurement k s) := by
  rw [startMeasurement_of_ne_win hk, h.pending]
  have ht : Polling e (clearPending p k) f (issue (reqMeasurement k)
      (setPhase .measRd (setMeas k (setPending (clearPending p k) s)))) :=
    ⟨h.fsm, h.cmd, h.hostErr, rfl, h.resp⟩
  rw [kindResult_of_ne_win hk] at hP
  exact ht.reaches_of_read henv rfl rfl h.settle (.inl ⟨rfl, rfl⟩) hf hP

/-- The measurement of WIN: the write, its settle, and after a good write the read (R113 to R115). -/
theorem Selecting.measures_win (henv : env.keepsContract) (h : Selecting e p f s)
    (hf : (f .win).2 = 0) {P : State → Prop} {n : Nat}
    (hP : ∀ s', Selecting e (clearPending p .win) (Function.update f .win (kindResult env .win)) s' →
      Reaches env pick n P s') :
    Reaches env pick (n + 3) P (startMeasurement .win s) := by
  obtain ⟨a, ha⟩ : ∃ a : WriteRsp, env ⟨.write, 0x26, 1⟩ = a.toTRsp :=
    exists_writeRsp_of_fits rfl (henv _)
  rw [startMeasurement, h.pending]
  have ht : Polling e (clearPending p .win) f (winWrStep a (setSched [] (issue (reqWindow s.hours)
      (setPhase .winWr (setPending (clearPending p .win) s))))) :=
    ⟨h.fsm, h.cmd, h.hostErr, rfl, h.resp⟩
  have hw : decide (a = .ok) = decide (env ⟨.write, 0x26, 1⟩ = .ok) := by
    rw [ha]
    cases a <;> rfl
  apply Reaches.step
  rw [closedStep_of_write rfl rfl ha, writeAnswered_winWr rfl]
  exact ht.reaches_of_winSettle henv rfl rfl rfl hw hf hP

/-! ### The whole cycle -/

/-- SELECT with nothing pending answers the POLL (R111). -/
theorem Selecting.reaches_answered_of_zero (h : Selecting e 0 f s) :
    Reaches env pick 1 (Answered .ready (pollRecord f) e) s := by
  apply Reaches.step
  rw [closedStep_of_select h.fsm h.phase h.xreq h.settle,
    selectStep_of_pending_zero (s := setSched [] s) h.pending]
  refine .now (.finish h.cmd ?_ h.hostErr)
  rw [setStatus_resp, setSched_resp, h.resp, setRw0Status_pollRecord]

/-- One pass of the cycle: the drawn kind leaves PENDING and its result enters the record (R111 to
R115). -/
theorem Selecting.measures (henv : env.keepsContract) (h : Selecting e p f s) (hp : p ≠ 0)
    (hf : ∀ k, isPending p k = true → (f k).2 = 0) :
    ∃ k, isPending p k = true ∧ ∀ {P : State → Prop} {n : Nat},
      (∀ s', Selecting e (clearPending p k) (Function.update f k (kindResult env k)) s' →
        Reaches env pick n P s') → Reaches env pick (n + kindCost k) P s := by
  obtain ⟨k, d, hk, hsel⟩ : ∃ k d, isPending s.pending k = true ∧
      selectStep (some (pick s.pending)) (setSched [] s)
        = startMeasurement k (setDraws d (setSched [] s)) :=
    selectStep_of_pending (s := setSched [] s) (by simpa [h.pending] using hp) _
  rw [h.pending] at hk
  have hd : Selecting e p f (setDraws d (setSched [] s)) := { h with }
  refine ⟨k, hk, fun {P n} hP => ?_⟩
  by_cases hw : k = .win
  · subst hw
    apply Reaches.step
    rw [closedStep_of_select h.fsm h.phase h.xreq h.settle, hsel]
    exact hd.measures_win henv (hf _ hk) hP
  · rw [kindCost, if_neg hw]
    apply Reaches.step
    rw [closedStep_of_select h.fsm h.phase h.xreq h.settle, hsel]
    exact hd.measures_of_ne_win henv hw (hf _ hk) hP

/-- From SELECT the POLL is answered with every pending kind's own result, by induction on the steps
the pending kinds take (R111, R116). -/
theorem Selecting.reaches_answered (henv : env.keepsContract) {c : Nat} (hc : pendingCost p = c)
    (h : Selecting e p f s) (hf : ∀ k, isPending p k = true → (f k).2 = 0) :
    Reaches env pick (pendingCost p + 1) (Answered .ready (pollRecord (completed env p f)) e) s := by
  induction c using Nat.strong_induction_on generalizing p f s with
  | _ c ih =>
    by_cases hp : p = 0
    · subst hp
      have hnone : completed env 0 f = f := by
        funext k
        simp [completed, isPending]
      rw [hnone]
      exact h.reaches_answered_of_zero
    · obtain ⟨k, hk, hstep⟩ := h.measures henv hp hf
      have hcost := pendingCost_clearPending hk
      have hpos : 0 < kindCost k := by
        unfold kindCost
        split <;> decide
      rw [← completed_clearPending env hk f, ← hcost, Nat.add_right_comm]
      apply hstep
      intro s' h'
      refine ih _ (by omega) rfl h' fun j hj => ?_
      rw [isPending_clearPending, Bool.and_eq_true, decide_eq_true_eq] at hj
      rw [Function.update_of_ne hj.2]
      exact hf j hj.1

/-- POLL is accepted in READY and answered with every requested kind's own result (R110, R116). -/
theorem poll_reaches_answered (henv : env.keepsContract) {c w r t : Bool} {h : Byte}
    (hinv : SequencerInv s) (hf : s.fsm = .ready) (hc : s.cmd = some (pollWord c w r t h)) :
    Reaches env pick 12 (Answered .ready (pollResponse env c w r t) s.hostErr) s := by
  have hb : s.fsm ≠ .busy := by simp [hf]
  have hp : s.phase = .none := hinv.engine.phase_of_stable hb
  have haccept : closedStep env pick s = acceptPoll c w r t h (setSched [] s) :=
    closedStep_of_command hinv hb hc (decodeEncodeRoundTrip (.poll c w r t h))
      (exec_poll_of_ready (s := setSched [] s) hf c w r t h)
  have hsel : Selecting s.hostErr (requestBits c w r t) (fun _ => (0, 0))
      (acceptPoll c w r t h (setSched [] s)) :=
    ⟨⟨rfl, rfl, rfl, rfl, pollRecord_zero⟩, rfl, hinv.engine.xreq_of_phase hp rfl,
      hinv.engine.settle_of_phase hp⟩
  have hcost : pendingCost (requestBits c w r t) ≤ 10 := pendingCost_le _
  rw [pollResponse_eq_pollRecord]
  apply Reaches.step
  rw [haccept]
  exact (hsel.reaches_answered henv rfl fun _ _ => rfl).mono (by omega)

end

/-- Settles O53: POLL is accepted, and its cycle ends with the record of every kind's result. -/
theorem pollRefinesItsResponse : Obligations.PollRefinesItsResponse := by
  unfold Obligations.PollRefinesItsResponse
  intro env pick s c w r t h henv hinv hf hc
  obtain ⟨n, hn, ha⟩ := poll_reaches_answered henv hinv hf hc
  exact ⟨n, hn, ha.cmd, ha.fsm, ha.resp, ha.hostErr⟩

/-- Transports that answer a kind's own requests alike give it the same result (R116). -/
theorem kindResult_congr {env env' : Oracle} {k : Kind}
    (h : ∀ q : XReq, q.addr = k.addr ∨ (k = .win ∧ q.addr = 0x26) → env q = env' q) :
    kindResult env k = kindResult env' k := by
  cases k with
  | win => rw [kindResult, kindResult, h _ (.inr ⟨rfl, rfl⟩), h _ (.inl rfl)]
  | cum | raw | time => rw [kindResult, kindResult, h _ (.inl rfl)]

/-- Settles O55: in both responses `k`'s MST and data word are its own result, which depends on the
answers to its own requests. -/
theorem pollFailuresAreIsolated : Obligations.PollFailuresAreIsolated := by
  unfold Obligations.PollFailuresAreIsolated
  intro env env' pick pick' s c w r t h k henv henv' hinv hf hc hsame
  obtain ⟨n, hn, ha⟩ := poll_reaches_answered (pick := pick) henv hinv hf hc
  obtain ⟨n', hn', ha'⟩ := poll_reaches_answered (pick := pick') henv' hinv hf hc
  refine ⟨n, n', _, _, hn, hn', ha.cmd, ha.fsm, ha'.cmd, ha'.fsm, ha.resp, ha'.resp, ?_, ?_⟩ <;>
    simp [pollResponse_eq_pollRecord, requestedResult, kindResult_congr hsame]

end Sys2Proof.Machine
end

section
/-! The operating states (60_exceptions.md R135, R140): what a transition makes of FSM_STATE and CUR_OP,
and from where VER_RD is entered, in one case for each way they change. -/

namespace Sys2Proof.Machine

/-- The answer to the identity read that INIT accepts: the four bytes of the expected identity (R85). -/
def identityAnswer : TRsp := .data [0xC0, 0x00, 0x43, 0x73]

/-- An answer passes IDCHECK exactly where it is the expected identity's bytes (R85, R104). -/
theorem identified_iff (a : ReadRsp) : identified a ↔ a.toTRsp = identityAnswer := by
  constructor
  · rintro ⟨b0, b1, b2, b3, rfl, hcheck⟩
    obtain ⟨rfl, rfl, rfl, rfl⟩ := (idCheck_bytes_iff b0 b1 b2 b3).mp hcheck
    rfl
  · intro h
    cases a with
    | err => cases h
    | data bytes =>
      cases h
      exact ⟨_, _, _, _, rfl, (idCheck_bytes_iff _ _ _ _).mpr ⟨rfl, rfl, rfl, rfl⟩⟩

/-- The phase and its command are ones that may end in READY, ID_RD under its guard (R104, R105, R111,
R120). -/
def EndsReady (m : Option Move) (s : State) : Prop :=
  (s.curOp = 1 ∧ s.phase = .idRd ∧ s.cfg.readVersionAtInit = false ∧
      m = some (.transport identityAnswer)) ∨
    (s.curOp = 1 ∧ s.phase = .verRd) ∨
    (s.curOp = 2 ∧ s.phase = .select) ∨ (s.curOp = 3 ∧ s.phase = .baseSettle)

/-- The ways in which FSM_STATE and CUR_OP change, and VER_RD is entered (R135, R140). -/
inductive OperatingChange (m : Option Move) (s s' : State) : Prop where
  | stays : s'.fsm = s.fsm → s'.curOp = s.curOp →
      (s'.phase = .verRd → s.phase = .verRd ∨
        (s.phase = .idRd ∧ m = some (.transport identityAnswer))) →
      OperatingChange m s s'
  | acceptsInit : s.fsm ≠ .busy → s.cmd = some initWord → s'.fsm = .busy → s'.curOp = 1 →
      s'.phase ≠ .verRd → OperatingChange m s s'
  | acceptsInReady : s.fsm = .ready → s'.fsm = .busy → s'.curOp = 2 ∨ s'.curOp = 3 →
      s'.phase ≠ .verRd → OperatingChange m s s'
  | endsReady : s.fsm = .busy → EndsReady m s → s'.fsm = .ready → s'.phase = .none →
      OperatingChange m s s'
  | failsInit (r : TRsp) : s.fsm = .busy → s.curOp = 1 → s.phase = .idRd →
      m = some (.transport r) → r ≠ identityAnswer → s'.fsm = .unusable → s'.phase = .none →
      OperatingChange m s s'
  | resets : m = some .reset → s'.fsm = .uninit → s'.phase = .none → OperatingChange m s s'

/-! ### The change each transition makes -/

/-- ID_RD ends the INIT in READY or UNUSABLE, or goes on to VER_RD, by the answer (R104). -/
theorem idRdStep_operatingChange {s : State} (h : EngineInv s) (hp : s.phase = .idRd) (a : ReadRsp) :
    OperatingChange (some (.transport a.toTRsp)) s (idRdStep a s) := by
  have hf : s.fsm = .busy := h.busy_of_phase hp (by decide)
  have hc : s.curOp = 1 := h.curOp_of_phase hp rfl
  obtain ⟨ρ, -, ⟨hid, hv, e⟩ | ⟨hid, e⟩ | ⟨hid, -, e⟩⟩ := idRdStep_cases a s <;>
    rw [e] <;> rw [identified_iff] at hid
  · exact .endsReady hf (.inl ⟨hc, hp, hv, by rw [hid]⟩) rfl rfl
  · exact .failsInit _ hf hc hp rfl hid rfl rfl
  · exact .stays rfl rfl fun _ => .inr ⟨hp, by rw [hid]⟩

/-- SELECT ends the POLL in READY or stays in it (R111). -/
theorem selectStep_operatingChange {s : State} (m : Option Move) (h : EngineInv s)
    (hp : s.phase = .select) (pick : Option Nat) : OperatingChange m s (selectStep pick s) := by
  rcases selectStep_cases pick s with ⟨-, e⟩ | ⟨k, n, -, e⟩
  · rw [e]
    exact .endsReady (h.busy_of_phase hp (by decide))
      (.inr (.inr (.inl ⟨h.curOp_of_phase hp rfl, hp⟩))) rfl rfl
  · rw [e]
    cases k <;> exact .stays rfl rfl nofun

/-- Every transition from a state with the invariants of R36 changes the operating state in one of the
listed ways. -/
theorem Transition.operatingChange {m : Option Move} {s s' : State} (hT : Transition m s s')
    (h : EngineInv s) : OperatingChange m s s' := by
  cases hT with
  | stay | offer | decoder | pollNotReady | setBaseNotReady | reserved => exact .stays rfl rfl .inl
  | winWr | baseWr => exact .stays rfl rfl nofun
  | reset hr => exact .resets hr rfl rfl
  | init w _ hw hd hf =>
    rw [← initWord_eq_of_decodeCmd hd] at hw
    exact .acceptsInit hf hw rfl rfl nofun
  | poll w c wi r t hr _ _ _ hf => exact .acceptsInReady hf rfl (.inl rfl) nofun
  | setBase w c _ _ _ hf => exact .acceptsInReady hf rfl (.inr rfl) nofun
  | select pick _ _ hp => exact selectStep_operatingChange m h hp pick
  | idRd a q hr hp =>
    rw [hr]
    exact idRdStep_operatingChange h hp a
  | verRd a q _ hp =>
    obtain ⟨ρ, -, e⟩ := verRdStep_eq a s
    rw [e]
    exact .endsReady (h.busy_of_phase hp (by decide))
      (.inr (.inl ⟨h.curOp_of_phase hp rfl, hp⟩)) rfl rfl
  | measRd a =>
    obtain ⟨ρ, -, e⟩ := measRdStep_eq a s
    rw [e]
    exact .stays rfl rfl nofun
  | winRd a =>
    obtain ⟨ρ, -, e⟩ := winRdStep_eq a s
    rw [e]
    exact .stays rfl rfl nofun
  | winSettle =>
    rcases winSettleStep_cases s with ⟨-, e⟩ | ⟨-, ρ, -, e⟩ <;> rw [e] <;>
      exact .stays rfl rfl nofun
  | baseSettle _ hp =>
    rw [baseSettleStep_eq_finish]
    exact .endsReady (h.busy_of_phase hp (by decide))
      (.inr (.inr (.inr ⟨h.curOp_of_phase hp rfl, hp⟩))) rfl rfl

/-! ### Where each operating state is entered and left -/

namespace OperatingChange

variable {m : Option Move} {s s' : State}

/-- UNINIT is entered by the reset input alone (R135). -/
theorem uninit_entered (h : OperatingChange m s s') (hu : s'.fsm = .uninit) :
    s.fsm = .uninit ∨ m = some .reset := by
  cases h with
  | stays hf => exact .inl (hf ▸ hu)
  | resets hm => exact .inr hm
  | acceptsInit _ _ hf | acceptsInReady _ hf | endsReady _ _ hf | failsInit _ _ _ _ _ _ hf =>
    simp [hf] at hu

/-- UNUSABLE is entered by a failed INIT alone (R135). -/
theorem unusable_entered (h : OperatingChange m s s') (hu : s'.fsm = .unusable) :
    s.fsm = .unusable ∨ (s.fsm = .busy ∧ s.curOp = 1 ∧ s.phase = .idRd ∧
      ∃ r, m = some (.transport r) ∧ r ≠ identityAnswer) := by
  cases h with
  | stays hf => exact .inl (hf ▸ hu)
  | failsInit r hf hc hp hm hr => exact .inr ⟨hf, hc, hp, r, hm, hr⟩
  | acceptsInit _ _ hf | acceptsInReady _ hf | endsReady _ _ hf | resets _ hf => simp [hf] at hu

/-- READY is entered at the end of a command alone (R135). -/
theorem ready_entered (h : OperatingChange m s s') (hr : s'.fsm = .ready) :
    s.fsm = .ready ∨ (s.fsm = .busy ∧ EndsReady m s) := by
  cases h with
  | stays hf => exact .inl (hf ▸ hr)
  | endsReady hf he => exact .inr ⟨hf, he⟩
  | acceptsInit _ _ hf | acceptsInReady _ hf | failsInit _ _ _ _ _ _ hf | resets _ hf =>
    simp [hf] at hr

/-- VER_RD is entered from ID_RD on the expected identity alone (R104). -/
theorem verRd_entered (h : OperatingChange m s s') (hp : s'.phase = .verRd) :
    s.phase = .verRd ∨ (s.phase = .idRd ∧ m = some (.transport identityAnswer)) := by
  cases h with
  | stays _ _ hv => exact hv hp
  | acceptsInit _ _ _ _ hn | acceptsInReady _ _ _ hn => exact absurd hp hn
  | endsReady _ _ _ hn | failsInit _ _ _ _ _ _ _ hn | resets _ _ hn => simp [hn] at hp

/-- BUSY is entered by INIT, and by POLL and SET_BASE in READY alone; CUR_OP stays in it (R100, R103). -/
theorem busy_entered (h : OperatingChange m s s') (hb : s'.fsm = .busy) :
    (s.fsm = .busy ∧ s'.curOp = s.curOp) ∨ (s.fsm ≠ .busy ∧ s'.curOp = 1) ∨
      (s.fsm = .ready ∧ (s'.curOp = 2 ∨ s'.curOp = 3)) := by
  cases h with
  | stays hf hc => exact .inl ⟨hf ▸ hb, hc⟩
  | acceptsInit hf _ _ hc => exact .inr (.inl ⟨hf, hc⟩)
  | acceptsInReady hf _ hc => exact .inr (.inr ⟨hf, hc⟩)
  | endsReady _ _ hf | failsInit _ _ _ _ _ _ hf | resets _ hf => simp [hf] at hb

/-- UNUSABLE is left by the reset input or by accepting INIT (R140). -/
theorem unusable_left (h : OperatingChange m s s') (hu : s.fsm = .unusable) (hn : s'.fsm ≠ .unusable) :
    m = some .reset ∨ (s.cmd = some initWord ∧ s'.fsm = .busy ∧ s'.curOp = 1) := by
  cases h with
  | stays hf => exact absurd (hf.trans hu) hn
  | resets hm => exact .inl hm
  | acceptsInit _ hw hf hc => exact .inr ⟨hw, hf, hc⟩
  | acceptsInReady hf | endsReady hf | failsInit _ hf => simp [hf] at hu

end OperatingChange

/-- Settles O41: the step's transition changes the operating state in one of the listed ways, and each
clause reads off where a state is entered or left. -/
theorem operatingStatesChangeAsTheRulesSay : Obligations.OperatingStatesChangeAsTheRulesSay := by
  unfold Obligations.OperatingStatesChangeAsTheRulesSay
  intro s s' h hs
  have hc := (step_transition hs).operatingChange (h.setSched s.sched.tail)
  exact ⟨hc.uninit_entered, hc.unusable_entered, hc.ready_entered, hc.verRd_entered,
    hc.busy_entered, hc.unusable_left⟩

end Sys2Proof.Machine
end

section
/-! The frame of a Transport answer (60_exceptions.md R134; 41_protocol.md R104, R105, R112, R113, R115,
R119): each step that takes one writes a few of the engine's registers and no other. -/

namespace Sys2Proof.Machine

/-- The states differ in FSM_STATE, PHASE, PENDING, WR_OK, XREQ, SETTLE, RESP and the trace alone: the
registers that a step on a Transport answer may write (R134). -/
def AnswerFrame (s s' : State) : Prop :=
  s' = { s with
    fsm := s'.fsm
    phase := s'.phase
    pending := s'.pending
    wrOk := s'.wrOk
    xreq := s'.xreq
    settle := s'.settle
    resp := s'.resp
    trace := s'.trace }

/-- ID_RD, its permanent faults included, stays within the frame (R104, R134). -/
theorem idRdStep_answerFrame (a : ReadRsp) (s : State) : AnswerFrame s (idRdStep a s) := by
  obtain ⟨ρ, -, ⟨-, -, e⟩ | ⟨-, e⟩ | ⟨-, -, e⟩⟩ := idRdStep_cases a s <;> rw [e] <;> exact rfl

/-- The step on a READ's answer stays within the frame, whatever the phase (R97). -/
theorem readAnswered_answerFrame (a : ReadRsp) (s : State) : AnswerFrame s (readAnswered a s) := by
  cases hp : s.phase with
  | idRd =>
    rw [readAnswered_idRd hp]
    exact idRdStep_answerFrame a s
  | verRd =>
    obtain ⟨ρ, -, e⟩ := verRdStep_eq a s
    rw [readAnswered_verRd hp, e]
    exact rfl
  | measRd =>
    obtain ⟨ρ, -, e⟩ := measRdStep_eq a s
    rw [readAnswered_measRd hp, e]
    exact rfl
  | winRd =>
    obtain ⟨ρ, -, e⟩ := winRdStep_eq a s
    rw [readAnswered_winRd hp, e]
    exact rfl
  | none | select | winWr | winSettle | baseWr | baseSettle =>
    rw [readAnswered, hp]
    exact rfl

/-- The step on a WRITE's answer stays within the frame, whatever the phase (R97). -/
theorem writeAnswered_answerFrame (a : WriteRsp) (s : State) : AnswerFrame s (writeAnswered a s) := by
  cases hp : s.phase with
  | winWr =>
    rw [writeAnswered_winWr hp]
    exact rfl
  | baseWr =>
    rw [writeAnswered_baseWr hp]
    exact rfl
  | none | idRd | verRd | select | measRd | winSettle | winRd | baseSettle =>
    rw [writeAnswered, hp]
    exact rfl

/-- An answer is a READ's, a WRITE's, or changes nothing (R122). -/
theorem transportAnswer_cases (r : TRsp) (s : State) :
    transportAnswer r s = s ∨ (∃ a, transportAnswer r s = readAnswered a s) ∨
      (∃ a, transportAnswer r s = writeAnswered a s) := by
  by_cases hfit : ∃ q, s.xreq = some q ∧ r.fits q = true
  · obtain ⟨q, hx, hq⟩ := hfit
    cases hk : q.kind with
    | read =>
      obtain ⟨a, rfl⟩ := exists_readRsp_of_fits hk hq
      exact .inr (.inl ⟨a, transportAnswer_of_read hx hk a⟩)
    | write =>
      obtain ⟨a, rfl⟩ := exists_writeRsp_of_fits hk hq
      exact .inr (.inr ⟨a, transportAnswer_of_write hx hk a⟩)
  · exact .inl (transportAnswer_of_unfit fun q hx =>
      Bool.eq_false_iff.mpr fun hq => hfit ⟨q, hx, hq⟩)

/-- The Transport's move stays within the frame, for every answer in every state (R122, R134). -/
theorem transportAnswer_answerFrame (r : TRsp) (s : State) : AnswerFrame s (transportAnswer r s) := by
  obtain e | ⟨a, e⟩ | ⟨a, e⟩ := transportAnswer_cases r s <;> rw [e]
  · exact rfl
  · exact readAnswered_answerFrame a s
  · exact writeAnswered_answerFrame a s

/-- Settles O44: the step is the Transport's move, and none of these registers is in its frame's list. -/
theorem answersLeaveOtherRegisters : Obligations.AnswersLeaveOtherRegisters := by
  unfold Obligations.AnswersLeaveOtherRegisters
  intro s s' r rest hs h
  cases h.symm.trans (step_transport hs)
  rw [transportAnswer_answerFrame r (setSched rest s)]
  exact ⟨rfl, rfl, rfl, rfl, rfl, rfl, rfl, rfl, rfl⟩

end Sys2Proof.Machine
end

section
/-! The reset input and the runs of the machine (70_reset_and_hazards.md R143, R152): what the pulse
leaves, and what every run keeps. -/

namespace Sys2Proof.Machine

/-- The step of the reset input (R143). -/
theorem step_reset {s : State} {rest : List Move} (h : s.sched = .reset :: rest) :
    step s = .next (resetPulse (setSched rest s)) := by
  rw [step, runNextMove, h]
  rfl

/-- Another event than the newest occurs as often as before it. -/
theorem occurrences_cons_of_ne {e e' : Event} (h : e ≠ e') (t : List Event) :
    occurrences e (e' :: t) = occurrences e t :=
  List.countP_cons_of_neg (by simpa using h.symm)

/-- Settles O8: the step is the reset pulse, whose one event is the mark, and after it nothing that
an answer or a signal could belong to is held. -/
theorem resetInputFromAnyState : Obligations.ResetInputFromAnyState := by
  unfold Obligations.ResetInputFromAnyState
  intro s rest hs
  obtain ⟨unfit, unarmed⟩ := unsolicitedAnswersDoNothing
  refine ⟨resetPulse (setSched rest s), step_reset hs, rfl, rfl, rfl, rfl, rfl, rfl, rfl, rfl, rfl,
    rfl, rfl, rfl, rfl, rfl, rfl, ?events, ?answer, ?signal⟩
  case events => exact fun e he => occurrences_cons_of_ne he s.trace
  case answer => exact fun r l => unfit _ r l rfl nofun
  case signal => exact fun l => unarmed _ l rfl rfl

/-- A run of one step more is the step and the run from there. -/
theorem run_succ {s t : State} (h : step s = .next t) (n : Nat) :
    Sys2Proof.core.run (n + 1) s = Sys2Proof.core.run n t := by
  have hstep : Sys2Proof.core.step s = .next t := h
  simp [Host.Core.run, hstep]

/-- A property that every step keeps is kept by every run. -/
theorem run_keeps {P : State → Prop} (keeps : ∀ s s' : State, P s → step s = .next s' → P s')
    (n : Nat) {s s' : State} (hs : P s) (h : Sys2Proof.core.run n s = .next s') : P s' := by
  induction n generalizing s with
  | zero =>
    cases h
    exact hs
  | succ n ih =>
    obtain ⟨t, ht, -⟩ := step_total s
    exact ih (keeps s t hs ht) (run_succ ht n ▸ h)

/-- Settles O49: the run starts in the invariant of the whole machine and keeps it, and P1 to P6 are
part of it. -/
theorem everyRunHasTheTraceProperties : Obligations.EveryRunHasTheTraceProperties := by
  unfold Obligations.EveryRunHasTheTraceProperties
  intro n l w c s h
  have hinv : MachineInv s := run_keeps machineInvariantIsKept n (machineInvariantAtReset l w c) h
  exact hinv.trace

end Sys2Proof.Machine
end

section
/-! Progress in the closed loop (70_reset_and_hazards.md R153): each step of a busy engine lowers
the bound `stepsLeft`. -/

namespace Sys2Proof.Machine

/-! ### The bound after each step -/

section
variable {s : State}

/-- ID_RD leaves at most VER_RD (R104). -/
theorem stepsLeft_idRdStep_le (a : ReadRsp) (s : State) : stepsLeft (idRdStep a s) ≤ 1 := by
  obtain ⟨ρ, -, ⟨-, -, e⟩ | ⟨-, e⟩ | ⟨-, -, e⟩⟩ := idRdStep_cases a s
  · rw [e]
    exact Nat.zero_le 1
  · rw [e]
    exact Nat.zero_le 1
  · rw [e]
    exact Nat.le_refl 1

/-- A started kind leaves the steps of all the kinds that were pending but for the draw (R111). -/
theorem stepsLeft_startMeasurement {k : Kind} (hk : isPending s.pending k = true) :
    stepsLeft (startMeasurement k s) = pendingCost s.pending := by
  have hcost : pendingCost (clearPending s.pending k) + kindCost k = pendingCost s.pending :=
    pendingCost_clearPending hk
  rw [startMeasurement_eq, ← hcost, Nat.add_comm]
  cases k <;> rfl

/-- SELECT answers or starts a measurement (R111). -/
theorem stepsLeft_selectStep_lt (hp : s.phase = .select) (pick : Option Nat) :
    stepsLeft (selectStep pick s) < stepsLeft s := by
  have hleft : stepsLeft s = 1 + pendingCost s.pending := by rw [stepsLeft, hp]
  rcases selectStep_cases pick s with ⟨-, e⟩ | ⟨k, n, hk, e⟩
  · have hend : stepsLeft (finish .ready (setStatus .ok s)) = 0 := rfl
    rw [e, hend]
    omega
  · rw [e, stepsLeft_startMeasurement (s := setDraws n s) hk, setDraws_pending]
    omega

/-- A read's answer ends the command or brings it to a later phase (R104, R105, R112, R115). -/
theorem stepsLeft_readAnswered_lt
    (hp : s.phase = .idRd ∨ s.phase = .verRd ∨ s.phase = .measRd ∨ s.phase = .winRd) (a : ReadRsp) :
    stepsLeft (readAnswered a s) < stepsLeft s := by
  rcases hp with hp | hp | hp | hp
  · have hleft : stepsLeft s = 2 := by rw [stepsLeft, hp]
    rw [readAnswered_idRd hp, hleft]
    exact Nat.lt_succ_of_le (stepsLeft_idRdStep_le a s)
  · have hleft : stepsLeft s = 1 := by rw [stepsLeft, hp]
    obtain ⟨ρ, -, e⟩ := verRdStep_eq a s
    rw [readAnswered_verRd hp, e, hleft]
    exact Nat.zero_lt_one
  · have hleft : stepsLeft s = 2 + pendingCost s.pending := by rw [stepsLeft, hp]
    obtain ⟨ρ, -, e⟩ := measRdStep_eq a s
    rw [readAnswered_measRd hp, e, hleft]
    exact Nat.add_lt_add_right Nat.one_lt_two _
  · have hleft : stepsLeft s = 2 + pendingCost s.pending := by rw [stepsLeft, hp]
    obtain ⟨ρ, -, e⟩ := winRdStep_eq a s
    rw [readAnswered_winRd hp, e, hleft]
    exact Nat.add_lt_add_right Nat.one_lt_two _

/-- A write's answer leaves its settle (R113, R119). -/
theorem stepsLeft_writeAnswered_lt (hp : s.phase = .winWr ∨ s.phase = .baseWr) (a : WriteRsp) :
    stepsLeft (writeAnswered a s) < stepsLeft s := by
  rcases hp with hp | hp
  · have hleft : stepsLeft s = 4 + pendingCost s.pending := by rw [stepsLeft, hp]
    rw [writeAnswered_winWr hp, hleft]
    exact Nat.add_lt_add_right (by decide : 3 < 4) _
  · have hleft : stepsLeft s = 2 := by rw [stepsLeft, hp]
    rw [writeAnswered_baseWr hp, hleft]
    exact Nat.one_lt_two

/-- A settle's signal leaves at most the window read, or ends the command (R114, R120). -/
theorem stepsLeft_timerSignal_lt (hs : s.settle = true)
    (hp : s.phase = .winSettle ∨ s.phase = .baseSettle) :
    stepsLeft (timerSignal s) < stepsLeft s := by
  rcases hp with hp | hp
  · have hleft : stepsLeft s = 3 + pendingCost s.pending := by rw [stepsLeft, hp]
    rw [timerSignal_winSettle hs hp, hleft]
    rcases winSettleStep_cases s with ⟨-, e⟩ | ⟨-, ρ, -, e⟩
    · rw [e]
      exact Nat.add_lt_add_right (by decide : 2 < 3) _
    · rw [e]
      exact Nat.add_lt_add_right (by decide : 1 < 3) _
  · have hleft : stepsLeft s = 1 := by rw [stepsLeft, hp]
    obtain ⟨ρ, -, e⟩ := baseSettleStep_eq s
    rw [timerSignal_baseSettle hs hp, e, hleft]
    exact Nat.zero_lt_one

end

/-! ### The move each phase enables -/

section
variable {env : Oracle} {s : State}

/-- In a phase that waits for a READ the Transport's answer is taken (R122). -/
theorem SequencerInv.closedStep_read (h : SequencerInv s) (henv : env.keepsContract)
    (pick : BitVec 4 → Nat)
    (hp : s.phase = .idRd ∨ s.phase = .verRd ∨ s.phase = .measRd ∨ s.phase = .winRd) :
    ∃ a, closedStep env pick s = readAnswered a (setSched [] s) := by
  obtain ⟨q, hx, hq⟩ : ∃ q, expectedXReq s = some q ∧ q.kind = .read := by
    rcases hp with hp | hp | hp | hp <;> rw [expectedXReq, hp]
    · exact ⟨_, rfl, rfl⟩
    · exact ⟨_, rfl, rfl⟩
    · cases s.meas <;> exact ⟨_, rfl, rfl⟩
    · exact ⟨_, rfl, rfl⟩
  obtain ⟨a, ha⟩ : ∃ a : ReadRsp, env q = a.toTRsp := exists_readRsp_of_fits hq (henv q)
  exact ⟨a, closedStep_of_read (h.xreq_eq.trans hx) hq ha⟩

/-- In a phase that waits for a WRITE the Transport's answer is taken (R122). -/
theorem SequencerInv.closedStep_write (h : SequencerInv s) (henv : env.keepsContract)
    (pick : BitVec 4 → Nat) (hp : s.phase = .winWr ∨ s.phase = .baseWr) :
    ∃ a, closedStep env pick s = writeAnswered a (setSched [] s) := by
  obtain ⟨q, hx, hq⟩ : ∃ q, expectedXReq s = some q ∧ q.kind = .write := by
    rcases hp with hp | hp <;> rw [expectedXReq, hp] <;> exact ⟨_, rfl, rfl⟩
  obtain ⟨a, ha⟩ : ∃ a : WriteRsp, env q = a.toTRsp := exists_writeRsp_of_fits hq (henv q)
  exact ⟨a, closedStep_of_write (h.xreq_eq.trans hx) hq ha⟩

end

/-- Settles O50: the move the phase enables is taken, and its step lowers the bound. -/
theorem everyStepMakesProgress : Obligations.EveryStepMakesProgress := by
  unfold Obligations.EveryStepMakesProgress
  intro env pick s henv hinv hf
  have he := hinv.engine
  have hsched : stepsLeft s = stepsLeft (setSched [] s) := rfl
  rw [hsched]
  cases hp : s.phase with
  | none => exact absurd hp (he.busy_iff.mp hf)
  | select =>
    rw [closedStep_of_select hf hp (he.xreq_of_phase hp rfl) (he.settle_of_phase hp)]
    exact stepsLeft_selectStep_lt (s := setSched [] s) hp _
  | idRd | verRd | measRd | winRd =>
    obtain ⟨a, e⟩ := hinv.closedStep_read henv pick (by simp [hp])
    rw [e]
    exact stepsLeft_readAnswered_lt (s := setSched [] s) (by simp [hp]) a
  | winWr | baseWr =>
    obtain ⟨a, e⟩ := hinv.closedStep_write henv pick (by simp [hp])
    rw [e]
    exact stepsLeft_writeAnswered_lt (s := setSched [] s) (by simp [hp]) a
  | winSettle | baseSettle =>
    have hs : s.settle = true := he.settle_of_phase hp
    rw [closedStep_of_settle (he.xreq_of_phase hp rfl) hs]
    exact stepsLeft_timerSignal_lt (s := setSched [] s) hs (by simp [hp])

end Sys2Proof.Machine
end

section
/-! The bounds of whole commands in the closed loop (70_reset_and_hazards.md R153): an offered word
that decodes is answered, by the end of its command or by a rejection. -/

namespace Sys2Proof.Machine

/-- INIT ends in READY or UNUSABLE (R104, R105). -/
theorem initResponse_stable (env : Oracle) (rv : Bool) : (initResponse env rv).2 ≠ .busy := by
  unfold initResponse
  split
  · dsimp only
    split
    · split <;> nofun
    · nofun
  · nofun
  · nofun

/-- The engine is stable again, with the word taken and a response the newest event. -/
def Responded (s : State) : Prop :=
  s.fsm ≠ .busy ∧ s.cmd = none ∧ ∃ r, s.trace.head? = some (.resp r)

/-- An answered command that leaves a stable state has its response. -/
theorem Answered.responded {f : FsmState} {ρ : Resp} {e : Bool} {s : State}
    (h : Answered f ρ e s) (hf : f ≠ .busy) : Responded s :=
  ⟨h.fsm ▸ hf, h.cmd, ρ, h.resp⟩

section
variable {env : Oracle} {pick : BitVec 4 → Nat} {s : State} {n : Nat}

/-- What is reached meets whatever follows from it. -/
theorem Reaches.imp {P Q : State → Prop} (h : Reaches env pick n P s) (hPQ : ∀ t, P t → Q t) :
    Reaches env pick n Q s := by
  obtain ⟨m, hm, hP⟩ := h
  exact ⟨m, hm, hPQ _ hP⟩

/-- A rejected word has its response after one step (R100). -/
theorem reaches_responded_of_reject {w v : Word} {i : Instr} {st : Status} (hinv : SequencerInv s)
    (hf : s.fsm ≠ .busy) (hc : s.cmd = some w) (hd : decodeCmd w = .ok i)
    (h : exec i (setSched [] s) = .next (reject st v (setSched [] s))) :
    Reaches env pick (n + 1) Responded s := by
  apply Reaches.step
  rw [closedStep_of_command hinv hf hc (by rw [decode, hd]) h]
  exact .now ⟨hf, rfl, _, rfl⟩

/-- A POLL has its response within 12 steps, a rejected one after the first (R100, R116). -/
theorem poll_reaches_responded (henv : env.keepsContract) (hinv : SequencerInv s)
    (hf : s.fsm ≠ .busy) {w : Word} {c wi r t : Bool} {h : Byte} (hc : s.cmd = some w)
    (hd : decodeCmd w = .ok (.poll c wi r t h)) : Reaches env pick 12 Responded s := by
  cases hfsm : s.fsm with
  | busy => exact absurd hfsm hf
  | ready =>
    obtain rfl := pollWord_eq_of_decodeCmd hd
    exact (poll_reaches_answered henv hinv hfsm hc).imp fun t ht => ht.responded nofun
  | uninit | unusable =>
    exact reaches_responded_of_reject hinv hf hc hd
      (exec_poll_of_not_ready (s := setSched [] s) (by simp [hfsm]) c wi r t h)

/-- A SET_BASE has its response within 3 steps, a rejected one after the first (R100, R120). -/
theorem setBase_reaches_responded (henv : env.keepsContract) (hinv : SequencerInv s)
    (hf : s.fsm ≠ .busy) {w : Word} {c : Half} (hc : s.cmd = some w)
    (hd : decodeCmd w = .ok (.setBase c)) : Reaches env pick 3 Responded s := by
  cases hfsm : s.fsm with
  | busy => exact absurd hfsm hf
  | ready =>
    obtain rfl := setBaseWord_eq_of_decodeCmd hd
    exact (setBase_reaches_answered henv pick hinv hfsm hc).imp fun t ht => ht.responded nofun
  | uninit | unusable =>
    exact reaches_responded_of_reject hinv hf hc hd
      (exec_setBase_of_not_ready (s := setSched [] s) (by simp [hfsm]) c)

/-- A decoded word has its response within the bound of its command (R153). -/
theorem command_reaches_responded (henv : env.keepsContract) (hinv : SequencerInv s)
    (hf : s.fsm ≠ .busy) {w : Word} {i : Instr} (hc : s.cmd = some w) (hd : decodeCmd w = .ok i) :
    Reaches env pick (if opField w = 2 then 12 else 3) Responded s := by
  rcases decodeCmd_ok_cases hd with rfl | ⟨c, wi, r, t, h, rfl⟩ | ⟨c, rfl⟩
  · rw [(decodeCmd_init_fields hd).1]
    obtain rfl := initWord_eq_of_decodeCmd hd
    exact (init_reaches_answered henv pick hinv hf hc).imp fun t ht =>
      ht.responded (initResponse_stable env _)
  · rw [(decodeCmd_poll_fields hd).1]
    exact poll_reaches_responded henv hinv hf hc hd
  · rw [(decodeCmd_setBase_fields hd).1]
    exact setBase_reaches_responded henv hinv hf hc hd

end

/-- Settles O51: a decoded word is an INIT, a POLL or a SET_BASE, each answered within its bound. -/
theorem commandsEndWithinTheirBounds : Obligations.CommandsEndWithinTheirBounds := by
  unfold Obligations.CommandsEndWithinTheirBounds
  intro env pick s w i henv hinv hf hc hd
  obtain ⟨n, hn, hfsm, hcmd, r, hr⟩ := command_reaches_responded (pick := pick) henv hinv hf hc hd
  exact ⟨n, r, hn, hfsm, hcmd, hr⟩

end Sys2Proof.Machine
end
